-- ==== Sys2Proof/Word.lean ====
section
/-! DEFINITION. The words of the block: the frame and its pieces (spec/00_scope.md R4, R5). -/

namespace Sys2Proof

/-- "A byte is 8 bits" (R4). -/
abbrev Byte := BitVec 8

/-- "a nibble is 4 bits" (R4, GLOSSARY). -/
abbrev Nibble := BitVec 4

/-- The RawFrame on the 48-bit input port: bit 47 is the first transmitted bit, bits 5..0 are padding (R20, R21). -/
abbrev Frame := BitVec 48

end Sys2Proof
end

