-- ==== Sys2Proof/Machine/Operands.lean ====
section
/-! DEFINITION. The frame access primitives (spec/00_scope.md R5, spec/20_memory.md R21, R22): every operand form there
is, each at a fixed position. -/

namespace Sys2Proof

/-- `byte(i) = F[47-8*i : 40-8*i]`, byte 0 first (R5). -/
def byteOf (F : Frame) (i : Fin 6) : Byte := F.extractLsb' (40 - 8 * i.val) 8

/-- `hi(i) = byte(i)[7:4]` (R5). -/
def hiOf (F : Frame) (i : Fin 6) : Nibble := (byteOf F i).extractLsb' 4 4

/-- `lo(i) = byte(i)[3:0]` (R5). -/
def loOf (F : Frame) (i : Fin 6) : Nibble := (byteOf F i).extractLsb' 0 4

/-- `nib(j) = F[47-4*j : 44-4*j]` (R5). -/
def nibOf (F : Frame) (j : Fin 12) : Nibble := F.extractLsb' (44 - 4 * j.val) 4

/-- `fbit(k) = F[47-k]`; `fbit(0)` is the first bit of the frame (R5). -/
def fbitOf (F : Frame) (k : Fin 48) : Bool := F.getLsbD (47 - k.val)

/-- `chan_raw = byte(1)[5:4]` (R30, R51). -/
def chanRawOf (F : Frame) : BitVec 2 := (byteOf F 1).extractLsb' 4 2

/-- `hum = byte(3)[7:1]` (R30, R54). -/
def humBitsOf (F : Frame) : BitVec 7 := (byteOf F 3).extractLsb' 1 7

/-- `batt = byte(4)[4]` (R30, R55). -/
def battBitOf (F : Frame) : BitVec 1 := (byteOf F 4).extractLsb' 4 1

/-- `byte(5)[7:6]`, the two low bits of the received checksum (R31, R43). -/
def crcvTopOf (F : Frame) : BitVec 2 := (byteOf F 5).extractLsb' 6 2

end Sys2Proof
end

