-- ==== Sys2Proof/Syntax.lean ====
section
/-! DEFINITION. The operations of the block, one constructor per row of spec/opcode_table.json, the container a frame
arrives in, and the fields of the frame format. The names of the operations are the spec's (spec/30_encoding.md R33). -/

namespace Sys2Proof

/-- A row of the operation map (R33): its name alone. -/
inductive Row where
  | decode | zchk | nsum | csum | crcv | ccmp | xid | xchan | xtraw | xtemp | xhum | xbatt | rtemp | rhum
  deriving DecidableEq, Repr

/-- One operation with the pieces of the frame it reads, as the Operands line of its rule names them. An operation that
reads only the results of other operations has no operand here: it reads the wires of the state.
DESIGN CHOICE, log entry 6. -/
inductive Instr where
  /-- `DECODE` (R70): the 48-bit frame. -/
  | decode (frame : Frame)
  /-- `ZCHK` (R40): `byte(0)`, `byte(1)`, `byte(2)`, `byte(3)`. -/
  | zchk (b0 b1 b2 b3 : Byte)
  /-- `NSUM` (R41): the nine nibbles `nib(0)` .. `nib(8)`. -/
  | nsum (n0 n1 n2 n3 n4 n5 n6 n7 n8 : Nibble)
  /-- `CSUM` (R42): reads the wire `nsum`. -/
  | csum
  /-- `CRCV` (R43): `lo(4)` and `byte(5)[7:6]`. -/
  | crcv (lo4 : Nibble) (top5 : BitVec 2)
  /-- `CCMP` (R44): reads the wires `csum` and `crcv`. -/
  | ccmp
  /-- `XID` (R50): `byte(0)`. -/
  | xid (b0 : Byte)
  /-- `XCHAN` (R51): `byte(1)[5:4]`, the field `chan_raw`. -/
  | xchan (chanRaw : BitVec 2)
  /-- `XTRAW` (R52): `lo(1)` and `byte(2)`. -/
  | xtraw (lo1 : Nibble) (b2 : Byte)
  /-- `XTEMP` (R53): reads the wire `temp_raw`. -/
  | xtemp
  /-- `XHUM` (R54): `byte(3)[7:1]`, the field `hum`. -/
  | xhum (hum : BitVec 7)
  /-- `XBATT` (R55): `byte(4)[4]`, the field `batt`. -/
  | xbatt (batt : BitVec 1)
  /-- `RTEMP` (R60): reads the wire `temp_tenths`. -/
  | rtemp
  /-- `RHUM` (R61): reads the wire `humidity`. -/
  | rhum
  deriving DecidableEq, Repr

/-- The row an operation belongs to. -/
def Instr.row : Instr → Row
  | .decode _ => .decode
  | .zchk _ _ _ _ => .zchk
  | .nsum _ _ _ _ _ _ _ _ _ => .nsum
  | .csum => .csum
  | .crcv _ _ => .crcv
  | .ccmp => .ccmp
  | .xid _ => .xid
  | .xchan _ => .xchan
  | .xtraw _ _ => .xtraw
  | .xtemp => .xtemp
  | .xhum _ => .xhum
  | .xbatt _ => .xbatt
  | .rtemp => .rtemp
  | .rhum => .rhum

/-- A container as the source writes it: a list of bytes, byte 0 first (R35). "exactly 6 bytes" is a check, not part of
the type (R24). -/
abbrev RawFrame := List Byte

/-- The fields of the frame format, first transmitted field first (R30; the two split fields assembled as R31 says). -/
structure FrameFields where
  id      : BitVec 8
  u1      : BitVec 2
  chanRaw : BitVec 2
  tempRaw : BitVec 12
  hum     : BitVec 7
  hlsb    : BitVec 1
  u4      : BitVec 3
  batt    : BitVec 1
  crcv    : BitVec 6
  pad     : BitVec 6
  deriving DecidableEq, Repr

end Sys2Proof
end

