-- ==== Sys2Proof/Config.lean ====
section
/-! DEFINITION. The hardwired constants of the block (spec/00_scope.md R3) and the free values of the model. The block
takes no argument: no constant below is a parameter. -/

namespace Sys2Proof.Config

/-- CK_MOD, the checksum modulus (R3, R42). -/
@[simp] abbrev ckMod : Nat := 64

/-- TEMP_OFFSET, subtracted when bit 11 of the raw temperature is set (R3, R53). -/
@[simp] abbrev tempOffset : Int := 4096

/-- TEMP_HI in tenths of a degree, excluded (R3, R60; spec/90_conflicts.md C1). UNVERIFIED, log entry 11. -/
@[simp] abbrev tempHi : Int := 2000

/-- TEMP_LO in tenths of a degree, excluded (R3, R60; spec/90_conflicts.md C1). UNVERIFIED, log entry 11. -/
@[simp] abbrev tempLo : Int := -500

/-- HUM_MAX, the largest accepted humidity in percent (R3, R61). UNVERIFIED, log entry 11. -/
@[simp] abbrev humMax : Nat := 100

/-- CHANNEL_OFFSET (R3, R51). -/
@[simp] abbrev channelOffset : Nat := 1

/-- FRAME_BYTES, the bytes of the container (R3, R20). -/
@[simp] abbrev frameBytes : Nat := 6

/-- Free value: what `rst` carries at an edge for which the model lists no input; nothing constrains it (log entry 2). -/
opaque freeRst : Nat → Bool

/-- Free value: what `frame_valid` carries at such an edge (log entry 2). -/
opaque freeFrameValid : Nat → Bool

/-- Free value: what `frame` carries at such an edge (log entry 2). -/
opaque freeFrame : Nat → Frame

end Sys2Proof.Config
end

