-- ==== Sys2Proof/WellFormed.lean ====
section
/-! DEFINITION. What is checked before a frame reaches the block. The only check the spec has is the length of the
container (spec/20_memory.md R24, spec/60_exceptions.md R95); no operand value is illegal (spec/30_encoding.md R34), so
every term of Instr is well-formed by its type. -/

namespace Sys2Proof

/-- "`frame` must be exactly 6 bytes" (R24). -/
def RawFrame.wf (r : RawFrame) : Bool := r.length == Config.frameBytes

/-- Every operation is well-formed: "No value is illegal" (R34), and the operand widths are in the types. -/
def Instr.wf : Instr → Bool
  | .decode _ => true
  | .zchk _ _ _ _ => true
  | .nsum _ _ _ _ _ _ _ _ _ => true
  | .csum => true
  | .crcv _ _ => true
  | .ccmp => true
  | .xid _ => true
  | .xchan _ => true
  | .xtraw _ _ => true
  | .xtemp => true
  | .xhum _ => true
  | .xbatt _ => true
  | .rtemp => true
  | .rhum => true

end Sys2Proof
end

