-- ==== Sys2Proof/Decode.lean ====
section
/-! DEFINITION. From bytes to operations and back. The block has one format and no opcode (spec/30_encoding.md R30, R33):
every six-byte container is a `DECODE`, and every row of the operation map reads its operands at fixed positions of the
same frame. -/

namespace Sys2Proof

/-- Why a container is turned away. -/
inductive DecodeError where
  /-- The container is not six bytes long: "rejected before this core is even invoked" (R24, R95). Safe: the block itself
  never sees such a container. -/
  | wrongLength (bytes : Nat)
  deriving DecidableEq, Repr

/-- The operation of row `r` on the frame `F`: the row's operands read from their positions (R33, column "reads"). -/
def decodeAs (r : Row) (F : Frame) : Instr :=
  match r with
  | .decode => .decode F
  | .zchk => .zchk (byteOf F 0) (byteOf F 1) (byteOf F 2) (byteOf F 3)
  | .nsum => .nsum (nibOf F 0) (nibOf F 1) (nibOf F 2) (nibOf F 3) (nibOf F 4) (nibOf F 5) (nibOf F 6) (nibOf F 7) (nibOf F 8)
  | .csum => .csum
  | .crcv => .crcv (loOf F 4) (crcvTopOf F)
  | .ccmp => .ccmp
  | .xid => .xid (byteOf F 0)
  | .xchan => .xchan (chanRawOf F)
  | .xtraw => .xtraw (loOf F 1) (byteOf F 2)
  | .xtemp => .xtemp
  | .xhum => .xhum (humBitsOf F)
  | .xbatt => .xbatt (battBitOf F)
  | .rtemp => .rtemp
  | .rhum => .rhum

/-- The operation the block performs on a presented frame: `DECODE`, whatever the frame holds (R33, R34).
DEDUCED, log entry 5. -/
def decodeWord (F : Frame) : Instr := decodeAs .decode F

/-- The thirteen named operations that make up `DECODE`, in the order of the operation map (R33). -/
def partRows : List Row := [.zchk, .nsum, .csum, .crcv, .ccmp, .xid, .xchan, .xtraw, .xtemp, .xhum, .xbatt, .rtemp, .rhum]

/-- "all thirteen are evaluated for every frame" (R33). -/
def partsOf (F : Frame) : List Instr := partRows.map (fun r => decodeAs r F)

/-- The frame whose bytes are listed, byte 0 in the top byte of the port (R21, D4). -/
def frameOfBytes (b0 b1 b2 b3 b4 b5 : Byte) : Frame := b0 ++ b1 ++ b2 ++ b3 ++ b4 ++ b5

/-- The bytes of a frame, byte 0 first (R35). -/
def bytesOfFrame (F : Frame) : RawFrame := [byteOf F 0, byteOf F 1, byteOf F 2, byteOf F 3, byteOf F 4, byteOf F 5]

/-- The decoder on any bytes at all: six bytes are a `DECODE`, any other number is rejected by name (R24, R95). -/
def decodeBytes (r : RawFrame) : Except DecodeError Instr :=
  match r with
  | [b0, b1, b2, b3, b4, b5] => .ok (decodeWord (frameOfBytes b0 b1 b2 b3 b4 b5))
  | other => .error (.wrongLength other.length)

/-- Column `mask` of the operation table (R33, section 8). -/
def rowMask : Row → Frame
  | .zchk => 0xffffffff0000#48
  | .decode => 0#48
  | .nsum => 0#48
  | .csum => 0#48
  | .crcv => 0#48
  | .ccmp => 0#48
  | .xid => 0#48
  | .xchan => 0#48
  | .xtraw => 0#48
  | .xtemp => 0#48
  | .xhum => 0#48
  | .xbatt => 0#48
  | .rtemp => 0#48
  | .rhum => 0#48

/-- "a frame `F` matches when `F and mask = match`"; column `match` is zero in every row (section 8). -/
def rowMatches (r : Row) (F : Frame) : Bool := F &&& rowMask r == 0#48

/-- The bits a row marks: the letters and zeros of its column `encoding` (section 8). For the thirteen parts they are the bits
the operation reads. The row `DECODE` carries the whole frame and marks all 48 bits, one letter for each field, among them
`p` for the padding that no operation reads (R23, R30). -/
def rowReads : Row → Frame
  | .decode => 0xffffffffffff#48
  | .zchk => 0xffffffff0000#48
  | .nsum => 0xfffffffff000#48
  | .csum => 0#48
  | .crcv => 0x000000000fc0#48
  | .ccmp => 0#48
  | .xid => 0xff0000000000#48
  | .xchan => 0x003000000000#48
  | .xtraw => 0x000fff000000#48
  | .xtemp => 0#48
  | .xhum => 0x000000fe0000#48
  | .xbatt => 0x000000001000#48
  | .rtemp => 0#48
  | .rhum => 0#48

/-- The encoder: an operation's operands at their positions in the frame, every bit it does not read 0 (R30, R33).
DESIGN CHOICE, log entry 6. -/
def encode : Instr → Frame
  | .decode F => F
  | .zchk b0 b1 b2 b3 => b0 ++ b1 ++ b2 ++ b3 ++ 0#16
  | .nsum n0 n1 n2 n3 n4 n5 n6 n7 n8 => n0 ++ n1 ++ n2 ++ n3 ++ n4 ++ n5 ++ n6 ++ n7 ++ n8 ++ 0#12
  | .csum => 0#48
  | .crcv lo4 top5 => 0#36 ++ lo4 ++ top5 ++ 0#6
  | .ccmp => 0#48
  | .xid b0 => b0 ++ 0#40
  | .xchan c => 0#10 ++ c ++ 0#36
  | .xtraw lo1 b2 => 0#12 ++ lo1 ++ b2 ++ 0#24
  | .xtemp => 0#48
  | .xhum h => 0#24 ++ h ++ 0#17
  | .xbatt b => 0#35 ++ b ++ 0#12
  | .rtemp => 0#48
  | .rhum => 0#48

/-- The fields of a frame, each at the port bits of the table (R30, R31). -/
def fieldsOf (F : Frame) : FrameFields where
  id      := byteOf F 0
  u1      := (byteOf F 1).extractLsb' 6 2
  chanRaw := chanRawOf F
  tempRaw := loOf F 1 ++ byteOf F 2
  hum     := humBitsOf F
  hlsb    := (byteOf F 3).extractLsb' 0 1
  u4      := (byteOf F 4).extractLsb' 5 3
  batt    := battBitOf F
  crcv    := loOf F 4 ++ crcvTopOf F
  pad     := (byteOf F 5).extractLsb' 0 6

/-- The frame with the given fields, the pattern of R30 read left to right. -/
def frameOfFields (f : FrameFields) : Frame :=
  f.id ++ f.u1 ++ f.chanRaw ++ f.tempRaw ++ f.hum ++ f.hlsb ++ f.u4 ++ f.batt ++ f.crcv ++ f.pad

/-- The frame whose port value is the table word `w` cut to `nbits` bits (bits above are 0). The table numbers the bits of
the one 48-bit word as the port does (section 8 of spec/30_encoding.md). DEDUCED, log entry 7. -/
def frameOfTableWord (nbits w : Nat) : Frame := BitVec.ofNat 48 (w % 2 ^ nbits)

/-- What the decoder reads from a table word: its six bytes, byte 0 first, given to `decodeBytes`. A word of more than 48
bits is no container of six bytes. -/
def decodeTableWord (nbits w : Nat) : Option Instr :=
  if nbits ≤ 48 then
    match decodeBytes (bytesOfFrame (frameOfTableWord nbits w)) with
    | .ok i => some i
    | .error _ => none
  else none

end Sys2Proof
end

