-- ==== Sys2Proof/Machine/State.lean ====
section
/-! DEFINITION. The state of the block as plain data: the output register (spec/10_state.md R11), the wires its operations
drive, and the inputs the outside world will present. -/

namespace Sys2Proof.Machine

/-- The four failure reasons (spec/60_exceptions.md R80). -/
inductive FailureReason where
  | allZero
  | checksumMismatch
  | temperatureOutOfRange
  | humidityOutOfRange
  deriving DecidableEq, Repr

/-- The Reading: five decoded members and the constant `checksum_valid` (spec/43_decode_top.md R71). -/
structure Reading where
  id            : BitVec 8
  channel       : BitVec 3
  tempTenths    : BitVec 12
  humidity      : BitVec 7
  batteryLow    : Bool
  checksumValid : Bool
  deriving DecidableEq, Repr

/-- `Result<Reading, FailureReason>` (spec/00_scope.md R6, spec/43_decode_top.md R70). -/
inductive Result where
  | ok (r : Reading)
  | fail (reason : FailureReason)
  deriving DecidableEq, Repr

/-- The output register: eight fields, 36 bits in all (R11). Its fields are the output ports. -/
structure OutReg where
  outValid      : Bool
  status        : BitVec 3
  id            : BitVec 8
  channel       : BitVec 3
  tempTenths    : BitVec 12
  humidity      : BitVec 7
  batteryLow    : Bool
  checksumValid : Bool
  deriving DecidableEq, Repr

/-- The value of the output register after reset: every field zero (R17). -/
def OutReg.reset : OutReg := ⟨false, 0, 0, 0, 0, 0, false, false⟩

/-- The wires the thirteen operations drive within one cycle (spec/30_encoding.md R33, column "produces"), and the reason
`raise` has reported in that cycle (spec/00_scope.md R6). Wires, not registers (R12): no value of theirs crosses an edge,
each edge leaves them idle. The model's own fields, log entries 3 and 4. -/
structure Wires where
  allzero    : Bool
  nsum       : BitVec 8
  csum       : BitVec 6
  crcv       : BitVec 6
  ckOk       : Bool
  id         : BitVec 8
  channel    : BitVec 3
  tempRaw    : BitVec 12
  tempTenths : BitVec 12
  humidity   : BitVec 7
  batteryLow : Bool
  tOk        : Bool
  hOk        : Bool
  raised     : Option FailureReason
  deriving DecidableEq, Repr

/-- The wires before any operation of a cycle has driven one: at reset and after every edge. DESIGN CHOICE, log entry 3: the
spec gives an undriven wire no value, because in the block every wire is driven in every cycle. -/
def Wires.idle : Wires := ⟨false, 0, 0, 0, false, 0, 0, 0, 0, 0, false, false, false, none⟩

/-- What the input ports carry at one rising edge of `clk` (R18). -/
structure Ports where
  rst        : Bool
  frameValid : Bool
  frame      : Frame
  deriving DecidableEq, Repr

/-- The whole state. -/
structure State where
  /-- The only architectural state of the block (R11). -/
  out       : OutReg
  /-- The model's own: wires driven so far in the cycle under way (log entry 3). -/
  wires     : Wires
  /-- The model's own: what the upstream neighbour presents in the cycles to come, next cycle first (log entry 1). -/
  inputs    : List Ports
  /-- The model's own: index of the next free port value (log entry 2). -/
  freeCount : Nat
  deriving DecidableEq, Repr

/-- No fault exists: "`DECODE` has no fault, no stuck state and no refusal" (R89). No constructor, so no step can end
in one. -/
inductive Fault where
  deriving DecidableEq, Repr

/-- Why a step may have no meaning. -/
inductive Refusal where
  /-- Raised by an arm of exec whose operation has no meaning yet; safe, since the step stops. No arm is left so. -/
  | notModelled (mnemonic : String)
  deriving DecidableEq, Repr

/-- The machine right after a reset edge: the output register at its reset value (R17, R100), nothing listed on the inputs
(log entry 1), the wires idle (log entry 3). -/
def State.reset : State := ⟨OutReg.reset, Wires.idle, [], 0⟩

end Sys2Proof.Machine
end

