-- ==== Sys2Proof/Machine/Flags.lean ====
section
/-! DEFINITION. Every one-bit result of the block and the status code: no operation writes a flag, the two status items
`out_valid` and `status` are written with the output register (spec/10_state.md R14). -/

namespace Sys2Proof.Machine

/-- `allzero` (spec/40_frame_validation.md R40): bytes 0..3 all zero. -/
def allzeroFlag (b0 b1 b2 b3 : Byte) : Bool := b0 == 0 && b1 == 0 && b2 == 0 && b3 == 0

/-- `ck_ok` (R44): equality of two 6-bit values, nothing stronger. -/
def ckOkFlag (csum crcv : BitVec 6) : Bool := csum == crcv

/-- `t_ok` (spec/42_range_check.md R60): a signed comparison, both bounds excluded. -/
def tOkFlag (tempTenths : BitVec 12) : Bool :=
  decide (Config.tempLo < tempTenths.toInt) && decide (tempTenths.toInt < Config.tempHi)

/-- `h_ok` (R61): an unsigned comparison, the bound included. -/
def hOkFlag (humidity : BitVec 7) : Bool := decide (humidity.toNat ≤ Config.humMax)

/-- `battery_low` (spec/41_field_extraction.md R55): the bit, copied. -/
def batteryFlag (batt : BitVec 1) : Bool := batt.getLsbD 0

/-- `code(reason)` (spec/60_exceptions.md R80). -/
def reasonCode : FailureReason → BitVec 3
  | .allZero => 2
  | .checksumMismatch => 3
  | .temperatureOutOfRange => 4
  | .humidityOutOfRange => 5

end Sys2Proof.Machine
end

