-- ==== Sys2Proof/Machine/Ops.lean ====
section
/-! DEFINITION. The named operations over the state: the one place each part of it is written, what `raise` does, what a
result does to the output register, and what an edge samples. There is no memory (spec/10_state.md R16) and no
exception in a processor's sense: in its place stand `raiseIf` and `outOfFailure` (spec/60_exceptions.md R86); there is
nothing to return from (R87). -/

namespace Sys2Proof.Machine

/-- The output register takes all eight fields at once (R11). -/
def putOut (o : OutReg) (s : State) : State := { s with out := o }

/-- An operation drives its wires; nothing else changes. -/
def putWires (w : Wires) (s : State) : State := { s with wires := w }

/-- `raise`: a reason already reported stays, "no later stage is evaluated" (spec/00_scope.md R6, spec/60_exceptions.md
R85); otherwise this one is reported if its condition holds. DESIGN CHOICE, log entry 4. -/
def raiseIf (condition : Bool) (reason : FailureReason) (earlier : Option FailureReason) : Option FailureReason :=
  match earlier with
  | some r => some r
  | none => if condition then some reason else none

/-- Entry of a failure: `out_valid = 1`, `status` the code, zero in the six other result fields (R72, R86). -/
def outOfFailure (reason : FailureReason) : OutReg := ⟨true, reasonCode reason, 0, 0, 0, 0, false, false⟩

/-- A success: `status = 1`, the five fields, `checksum_valid = 1` (R71, R74). -/
def outOfReading (r : Reading) : OutReg :=
  ⟨true, 1, r.id, r.channel, r.tempTenths, r.humidity, r.batteryLow, true⟩

/-- The encoding of a result on the output register (R37, R74). -/
def outOfResult : Result → OutReg
  | .ok r => outOfReading r
  | .fail reason => outOfFailure reason

/-- An edge with `rst = 1` (spec/70_reset_and_hazards.md R100): the output register, and nothing else there is (R101). -/
def resetEdge (s : State) : State := putOut OutReg.reset s

/-- An edge with neither `rst` nor `frame_valid`: `out_valid` falls, the other seven fields hold (R74, R76). -/
def idleEdge (s : State) : State := putOut { s.out with outValid := false } s

/-- The free port values of an edge for which no input is listed (log entry 2). -/
def freePorts (n : Nat) : Ports := ⟨Config.freeRst n, Config.freeFrameValid n, Config.freeFrame n⟩

/-- What the ports carry at the coming edge: the first listed input, or free values when none is listed. -/
def sampledPorts (s : State) : Ports :=
  match s.inputs with
  | p :: _ => p
  | [] => freePorts s.freeCount

/-- The cycle's input is used up: the listed one, or else the free one. -/
def useInput (s : State) : State :=
  match s.inputs with
  | _ :: rest => { s with inputs := rest }
  | [] => { s with freeCount := s.freeCount + 1 }

/-- The cycle is over: its input is used up and its wires are gone, "wires within one cycle, not registers" (R12). -/
def passCycle (s : State) : State := putWires Wires.idle (useInput s)

end Sys2Proof.Machine
end

