-- ==== Sys2Proof/Machine/Extraction.lean ====
section
/-! DEFINITION. Stage 3: `XID`, `XCHAN`, `XTRAW`, `XTEMP`, `XHUM`, `XBATT` (spec/41_field_extraction.md). None raises. -/

namespace Sys2Proof.Machine

/-- `XID` (R50): byte 0, verbatim. -/
def opXid (b0 : Byte) (s : State) : State := putWires { s.wires with id := b0 } s

/-- `zext_3(chan_raw) + 1` (R51). -/
def channelOf (chanRaw : BitVec 2) : BitVec 3 := chanRaw.setWidth 3 + BitVec.ofNat 3 Config.channelOffset

/-- `XCHAN` (R51). -/
def opXchan (chanRaw : BitVec 2) (s : State) : State := putWires { s.wires with channel := channelOf chanRaw } s

/-- `((byte(1) & 0x0f) << 8) | byte(2)` (R52). -/
def tempRawOf (lo1 : Nibble) (b2 : Byte) : BitVec 12 := (lo1.setWidth 12 <<< 8) ||| b2.setWidth 12

/-- `XTRAW` (R52). -/
def opXtraw (lo1 : Nibble) (b2 : Byte) (s : State) : State := putWires { s.wires with tempRaw := tempRawOf lo1 b2 } s

/-- `t` of R53: 4096 less when bit 11 is set. -/
def signedTenths (tempRaw : BitVec 12) : Int :=
  if tempRaw.getLsbD 11 then (tempRaw.toNat : Int) - Config.tempOffset else (tempRaw.toNat : Int)

/-- `temp_tenths` (R53, R56): `t` as a 12-bit two's-complement number. -/
def tempTenthsOf (tempRaw : BitVec 12) : BitVec 12 := BitVec.ofInt 12 (signedTenths tempRaw)

/-- `XTEMP` (R53). -/
def opXtemp (s : State) : State := putWires { s.wires with tempTenths := tempTenthsOf s.wires.tempRaw } s

/-- `XHUM` (R54): the seven bits, the low bit of byte 3 dropped. -/
def opXhum (hum : BitVec 7) (s : State) : State := putWires { s.wires with humidity := hum } s

/-- `XBATT` (R55). -/
def opXbatt (batt : BitVec 1) (s : State) : State := putWires { s.wires with batteryLow := batteryFlag batt } s

/-- Meaning of `XID`. -/
def execXid (b0 : Byte) (s : State) : Host.Outcome State Fault Refusal := .next (opXid b0 s)

/-- Meaning of `XCHAN`. -/
def execXchan (chanRaw : BitVec 2) (s : State) : Host.Outcome State Fault Refusal := .next (opXchan chanRaw s)

/-- Meaning of `XTRAW`. -/
def execXtraw (lo1 : Nibble) (b2 : Byte) (s : State) : Host.Outcome State Fault Refusal := .next (opXtraw lo1 b2 s)

/-- Meaning of `XTEMP`. -/
def execXtemp (s : State) : Host.Outcome State Fault Refusal := .next (opXtemp s)

/-- Meaning of `XHUM`. -/
def execXhum (hum : BitVec 7) (s : State) : Host.Outcome State Fault Refusal := .next (opXhum hum s)

/-- Meaning of `XBATT`. -/
def execXbatt (batt : BitVec 1) (s : State) : Host.Outcome State Fault Refusal := .next (opXbatt batt s)

end Sys2Proof.Machine
end

