-- ==== Sys2Proof/Machine/Range.lean ====
section
/-! DEFINITION. Stage 4: `RTEMP`, `RHUM` (spec/42_range_check.md). -/

namespace Sys2Proof.Machine

/-- `RTEMP` (R60): raised only if neither `ZCHK` nor `CCMP` raised. -/
def opRtemp (s : State) : State :=
  putWires { s.wires with
    tOk := tOkFlag s.wires.tempTenths
    raised := raiseIf (!tOkFlag s.wires.tempTenths) .temperatureOutOfRange s.wires.raised } s

/-- `RHUM` (R61): raised only if none of `ZCHK`, `CCMP`, `RTEMP` raised (R62). -/
def opRhum (s : State) : State :=
  putWires { s.wires with
    hOk := hOkFlag s.wires.humidity
    raised := raiseIf (!hOkFlag s.wires.humidity) .humidityOutOfRange s.wires.raised } s

/-- Meaning of `RTEMP`. -/
def execRtemp (s : State) : Host.Outcome State Fault Refusal := .next (opRtemp s)

/-- Meaning of `RHUM`. -/
def execRhum (s : State) : Host.Outcome State Fault Refusal := .next (opRhum s)

end Sys2Proof.Machine
end

