-- ==== Sys2Proof/Machine/Validation.lean ====
section
/-! DEFINITION. Stage 1 and Stage 2: `ZCHK`, `NSUM`, `CSUM`, `CRCV`, `CCMP` (spec/40_frame_validation.md). Each operation
has a value, the state after it has driven its wire, and a meaning. -/

namespace Sys2Proof.Machine

/-- `ZCHK` (R40). It is the first operation of a decode, so no earlier reason stands when it raises (log entry 4). -/
def opZchk (b0 b1 b2 b3 : Byte) (s : State) : State :=
  putWires { s.wires with
    allzero := allzeroFlag b0 b1 b2 b3
    raised := raiseIf (allzeroFlag b0 b1 b2 b3) .allZero none } s

/-- The sum of R41, over integers; 8 bits hold it exactly because it is at most 135. -/
def nsumOf (n0 n1 n2 n3 n4 n5 n6 n7 n8 : Nibble) : BitVec 8 :=
  BitVec.ofNat 8 (n0.toNat + n1.toNat + n2.toNat + n3.toNat + n4.toNat + n5.toNat + n6.toNat + n7.toNat + n8.toNat)

/-- `NSUM` (R41). -/
def opNsum (n0 n1 n2 n3 n4 n5 n6 n7 n8 : Nibble) (s : State) : State :=
  putWires { s.wires with nsum := nsumOf n0 n1 n2 n3 n4 n5 n6 n7 n8 } s

/-- `nsum mod 64` (R42). -/
def csumOf (nsum : BitVec 8) : BitVec 6 := BitVec.ofNat 6 (nsum.toNat % Config.ckMod)

/-- `CSUM` (R42). -/
def opCsum (s : State) : State := putWires { s.wires with csum := csumOf s.wires.nsum } s

/-- `(lo(4) << 2) | (byte(5) >> 6)` (R43; the formula, not the prose, spec/90_conflicts.md C7). -/
def crcvOf (lo4 : Nibble) (top5 : BitVec 2) : BitVec 6 := (lo4.setWidth 6 <<< 2) ||| top5.setWidth 6

/-- `CRCV` (R43). -/
def opCrcv (lo4 : Nibble) (top5 : BitVec 2) (s : State) : State :=
  putWires { s.wires with crcv := crcvOf lo4 top5 } s

/-- `CCMP` (R44). -/
def opCcmp (s : State) : State :=
  putWires { s.wires with
    ckOk := ckOkFlag s.wires.csum s.wires.crcv
    raised := raiseIf (!ckOkFlag s.wires.csum s.wires.crcv) .checksumMismatch s.wires.raised } s

/-- Meaning of `ZCHK`. -/
def execZchk (b0 b1 b2 b3 : Byte) (s : State) : Host.Outcome State Fault Refusal := .next (opZchk b0 b1 b2 b3 s)

/-- Meaning of `NSUM`. -/
def execNsum (n0 n1 n2 n3 n4 n5 n6 n7 n8 : Nibble) (s : State) : Host.Outcome State Fault Refusal :=
  .next (opNsum n0 n1 n2 n3 n4 n5 n6 n7 n8 s)

/-- Meaning of `CSUM`. -/
def execCsum (s : State) : Host.Outcome State Fault Refusal := .next (opCsum s)

/-- Meaning of `CRCV`. -/
def execCrcv (lo4 : Nibble) (top5 : BitVec 2) (s : State) : Host.Outcome State Fault Refusal := .next (opCrcv lo4 top5 s)

/-- Meaning of `CCMP`. -/
def execCcmp (s : State) : Host.Outcome State Fault Refusal := .next (opCcmp s)

end Sys2Proof.Machine
end

