-- ==== Sys2Proof/Machine/DecodeTop.lean ====
section
/-! DEFINITION. `DECODE`: the pure function over the values of the thirteen operations, and the meaning that registers its
result (spec/43_decode_top.md R70 to R74). -/

namespace Sys2Proof.Machine

/-- `nsum` of a frame (R41). -/
def frameNsum (F : Frame) : BitVec 8 :=
  nsumOf (nibOf F 0) (nibOf F 1) (nibOf F 2) (nibOf F 3) (nibOf F 4) (nibOf F 5) (nibOf F 6) (nibOf F 7) (nibOf F 8)

/-- The pure function `DECODE(F)`, the early-return chain of R70 in its normative order. -/
def decodeFrame (F : Frame) : Result :=
  if allzeroFlag (byteOf F 0) (byteOf F 1) (byteOf F 2) (byteOf F 3) then .fail .allZero
  else if !ckOkFlag (csumOf (frameNsum F)) (crcvOf (loOf F 4) (crcvTopOf F)) then .fail .checksumMismatch
  else
    let tempTenths := tempTenthsOf (tempRawOf (loOf F 1) (byteOf F 2))
    let humidity := humBitsOf F
    if !tOkFlag tempTenths then .fail .temperatureOutOfRange
    else if !hOkFlag humidity then .fail .humidityOutOfRange
    else .ok
      { id := byteOf F 0
        channel := channelOf (chanRawOf F)
        tempTenths := tempTenths
        humidity := humidity
        batteryLow := batteryFlag (battBitOf F)
        checksumValid := true }

/-- Meaning of `DECODE` at the edge that samples its frame: the output register takes the encoding of `DECODE(F)` with
`out_valid = 1` (R74), and nothing else changes (R77). The wires of the thirteen operations are values within the evaluation
of `decodeFrame`, not left behind (spec/10_state.md R12). -/
def execDecode (F : Frame) (s : State) : Host.Outcome State Fault Refusal :=
  .next (putOut (outOfResult (decodeFrame F)) s)

end Sys2Proof.Machine
end

