-- ==== Sys2Proof/Machine/Dispatch.lean ====
section
/-! DEFINITION. One arm per operation. -/

namespace Sys2Proof.Machine

def exec (i : Instr) (s : State) : Host.Outcome State Fault Refusal :=
  match i with
  | .decode frame => Sys2Proof.Machine.execDecode frame s
  | .zchk b0 b1 b2 b3 => Sys2Proof.Machine.execZchk b0 b1 b2 b3 s
  | .nsum n0 n1 n2 n3 n4 n5 n6 n7 n8 => Sys2Proof.Machine.execNsum n0 n1 n2 n3 n4 n5 n6 n7 n8 s
  | .csum => Sys2Proof.Machine.execCsum s
  | .crcv lo4 top5 => Sys2Proof.Machine.execCrcv lo4 top5 s
  | .ccmp => Sys2Proof.Machine.execCcmp s
  | .xid b0 => Sys2Proof.Machine.execXid b0 s
  | .xchan chanRaw => Sys2Proof.Machine.execXchan chanRaw s
  | .xtraw lo1 b2 => Sys2Proof.Machine.execXtraw lo1 b2 s
  | .xtemp => Sys2Proof.Machine.execXtemp s
  | .xhum hum => Sys2Proof.Machine.execXhum hum s
  | .xbatt batt => Sys2Proof.Machine.execXbatt batt s
  | .rtemp => Sys2Proof.Machine.execRtemp s
  | .rhum => Sys2Proof.Machine.execRhum s

end Sys2Proof.Machine
end

