-- ==== Sys2Proof/Machine/Step.lean ====
section
/-! DEFINITION. One step of the block is one rising edge of `clk` (spec/43_decode_top.md R74). -/

namespace Sys2Proof.Machine

/-- The edge (R19, R74): reset wins, else a valid frame is decoded, else the result is held. The edge ends the cycle, so no
wire keeps its value over it (spec/10_state.md R12). -/
def step (s : State) : Host.Outcome State Fault Refusal :=
  if (sampledPorts s).rst then .next (resetEdge (passCycle s))
  else if (sampledPorts s).frameValid then exec (decodeWord (sampledPorts s).frame) (passCycle s)
  else .next (idleEdge (passCycle s))

/-- `s` with the table word presented on the ports at the coming edge: `rst = 0`, `frame_valid = 1`, `frame` the word; it
takes the place of the input listed for that edge, if one is (log entry 8). -/
def State.withFetchWord (s : State) (nbits w : Nat) : State :=
  { s with inputs := ⟨false, true, frameOfTableWord nbits w⟩ :: s.inputs.tail }

end Sys2Proof.Machine
end

