-- ==== Sys2Proof/Safety.lean ====
section
/-! DEFINITION. The terms the claims use. A safe run of this block is one whose output register never shows a value that no
result, held or fresh, and no reset produces (spec/30_encoding.md R37, spec/93_implementation_defined.md U5); the model has
no fault and no stuck state to avoid (spec/60_exceptions.md R89). -/

namespace Sys2Proof.Machine

/-- The sum of the nine nibbles of the checksummed region, over the integers, written from the port bits (spec/40_frame_validation.md
R41: `nib(j) = F[47-4*j : 44-4*j]`, j in 0..8) and independent of the model's own sum. -/
def portNibbleSum (F : Frame) : Nat := ((List.range 9).map (fun j => (F.extractLsb' (44 - 4 * j) 4).toNat)).sum

/-- The register shows the reset value, a Reading within its ranges (R71, R79), or a failure that exposes nothing (R72). -/
abbrev LegalOut (o : OutReg) : Prop :=
  o = OutReg.reset ∨
  (o.status = 1 ∧ o.checksumValid = true ∧ 1 ≤ o.channel.toNat ∧ o.channel.toNat ≤ 4 ∧
    -499 ≤ o.tempTenths.toInt ∧ o.tempTenths.toInt ≤ 1999 ∧ o.humidity.toNat ≤ 100) ∨
  ((o.status = 2 ∨ o.status = 3 ∨ o.status = 4 ∨ o.status = 5) ∧ o.id = 0 ∧ o.channel = 0 ∧ o.tempTenths = 0 ∧
    o.humidity = 0 ∧ o.batteryLow = false ∧ o.checksumValid = false)

/-- Operations executed one after the other, stopping at the first that does not answer a next state. -/
def execAll : List Instr → State → Host.Outcome State Fault Refusal
  | [], s => .next s
  | i :: rest, s =>
    match exec i s with
    | .next t => execAll rest t
    | .fault r => .fault r
    | .refused r => .refused r

/-- The reasons `raise` reports over the four stages of one frame, none standing at the start (R70, R85). -/
def raisedOf (allzero ckOk tOk hOk : Bool) : Option FailureReason :=
  raiseIf (!hOk) .humidityOutOfRange
    (raiseIf (!tOk) .temperatureOutOfRange
      (raiseIf (!ckOk) .checksumMismatch
        (raiseIf allzero .allZero none)))

/-- The wires within the cycle of a frame, all thirteen operations evaluated on it: combinational, valid or not
(spec/30_encoding.md R33, spec/41_field_extraction.md R57). Every wire is a function of the frame (R10, R12). -/
def partWires (F : Frame) : Wires :=
  let allzero := allzeroFlag (byteOf F 0) (byteOf F 1) (byteOf F 2) (byteOf F 3)
  let nsum := frameNsum F
  let csum := csumOf nsum
  let crcv := crcvOf (loOf F 4) (crcvTopOf F)
  let ckOk := ckOkFlag csum crcv
  let tempRaw := tempRawOf (loOf F 1) (byteOf F 2)
  let tempTenths := tempTenthsOf tempRaw
  let humidity := humBitsOf F
  let tOk := tOkFlag tempTenths
  let hOk := hOkFlag humidity
  { allzero := allzero
    nsum := nsum
    csum := csum
    crcv := crcv
    ckOk := ckOk
    id := byteOf F 0
    channel := channelOf (chanRawOf F)
    tempRaw := tempRaw
    tempTenths := tempTenths
    humidity := humidity
    batteryLow := batteryFlag (battBitOf F)
    tOk := tOk
    hOk := hOk
    raised := raisedOf allzero ckOk tOk hOk }

/-- The frame with its received checksum field `F[11:6]` replaced (spec/30_encoding.md R30, R31). -/
def withCrcv (F : Frame) (c : BitVec 6) : Frame := (F &&& 0xfffffffff03f#48) ||| (c.setWidth 48 <<< 6)

/-- The frame with bit `k` of the transmission flipped (spec/20_memory.md R21: `fbit(k) = F[47-k]`). -/
def flipBit (F : Frame) (k : Nat) : Frame := F ^^^ (1#48 <<< (47 - k))

end Sys2Proof.Machine
end

