-- ==== Sys2Proof/Certificates/Slice0/Obligations.lean ====
section
/-! DEFINITION. The statements for the provers. Port slices `F.extractLsb hi lo` are the spec's `F[hi:lo]`; results are
written from the rules, not by the model's own value functions, wherever a rule gives them. -/

open Sys2Proof Sys2Proof.Machine

/-! ### Stage 1 and Stage 2 -/

/-- R40, operand, value, `raise` and frame. The wire `raised` is the model's form of `raise` (log entry 4). -/
def Obligations.ZchkDrivesAllzero : Prop :=
  (∀ F : Frame, ∃ b0 b1 b2 b3 : Byte, decodeAs .zchk F = .zchk b0 b1 b2 b3 ∧ b0 ++ b1 ++ b2 ++ b3 = F.extractLsb 47 16) ∧
  ∀ (b0 b1 b2 b3 : Byte) (s : State), ∃ t, exec (.zchk b0 b1 b2 b3) s = .next t ∧
    (t.wires.allzero = true ↔ b0 ++ b1 ++ b2 ++ b3 = 0#32) ∧
    (t.wires.allzero = true → t.wires.raised = some .allZero) ∧
    (t.wires.allzero = false → t.wires.raised = none) ∧
    t = { s with wires := { s.wires with allzero := t.wires.allzero, raised := t.wires.raised } }

/-- R41: the unwrapped sum of the nine nibbles, at most 135, for every operand, and what it is of a frame. -/
def Obligations.NsumAddsNineNibbles : Prop :=
  (∀ (F : Frame) (s : State), ∃ t, exec (decodeAs .nsum F) s = .next t ∧ t.wires.nsum.toNat = portNibbleSum F) ∧
  ∀ (n0 n1 n2 n3 n4 n5 n6 n7 n8 : Nibble) (s : State),
    ∃ t, exec (.nsum n0 n1 n2 n3 n4 n5 n6 n7 n8) s = .next t ∧
      t.wires.nsum.toNat = [n0, n1, n2, n3, n4, n5, n6, n7, n8].foldr (fun n a => n.toNat + a) 0 ∧
      t.wires.nsum.toNat ≤ 135 ∧
      t = { s with wires := { s.wires with nsum := t.wires.nsum } }

/-- R42: `nsum mod 64`, the slice `nsum[5:0]`, and the three ranges of its value. -/
def Obligations.CsumReducesModulo64 : Prop :=
  ∀ s : State, ∃ t, exec .csum s = .next t ∧
    t.wires.csum = s.wires.nsum.extractLsb 5 0 ∧
    t.wires.csum.toNat = s.wires.nsum.toNat % 64 ∧
    (s.wires.nsum.toNat ≤ 63 → t.wires.csum.toNat = s.wires.nsum.toNat) ∧
    (64 ≤ s.wires.nsum.toNat → s.wires.nsum.toNat ≤ 127 → t.wires.csum.toNat = s.wires.nsum.toNat - 64) ∧
    (128 ≤ s.wires.nsum.toNat → s.wires.nsum.toNat ≤ 135 → t.wires.csum.toNat = s.wires.nsum.toNat - 128) ∧
    t = { s with wires := { s.wires with csum := t.wires.csum } }

/-- R43 and R31: the four bits of `lo(4)` above the two of `byte(5)[7:6]`; on the port, `F[11:6]`. -/
def Obligations.CrcvJoinsNibbleAndTopBits : Prop :=
  (∀ (F : Frame) (s : State), ∃ t, exec (decodeAs .crcv F) s = .next t ∧ t.wires.crcv = F.extractLsb 11 6) ∧
  ∀ (lo4 : Nibble) (top5 : BitVec 2) (s : State), ∃ t, exec (.crcv lo4 top5) s = .next t ∧
    t.wires.crcv = lo4 ++ top5 ∧
    t.wires.crcv.toNat = lo4.toNat * 4 + top5.toNat ∧
    t = { s with wires := { s.wires with crcv := t.wires.crcv } }

/-- R44: equality of the two 6-bit values and nothing more; the reason is reported only if none stands already. The wire
`raised` is the model's form of `raise` (log entry 4). -/
def Obligations.CcmpComparesChecksums : Prop :=
  ∀ s : State, ∃ t, exec .ccmp s = .next t ∧
    (t.wires.ckOk = true ↔ s.wires.csum.toNat = s.wires.crcv.toNat) ∧
    (∀ r, s.wires.raised = some r → t.wires.raised = some r) ∧
    (s.wires.raised = none → t.wires.raised = if s.wires.csum.toNat = s.wires.crcv.toNat then none else some .checksumMismatch) ∧
    t = { s with wires := { s.wires with ckOk := t.wires.ckOk, raised := t.wires.raised } }

/-! ### Stage 3 -/

/-- R50: byte 0 verbatim; on the port, `F[47:40]`. -/
def Obligations.XidTakesByteZero : Prop :=
  (∀ F : Frame, decodeAs .xid F = .xid (F.extractLsb 47 40)) ∧
  ∀ (b0 : Byte) (s : State), exec (.xid b0) s = .next { s with wires := { s.wires with id := b0 } }

/-- R51: `chan_raw + 1`, 1 to 4, no carry lost; on the port, `F[37:36]`. -/
def Obligations.XchanAddsOne : Prop :=
  (∀ F : Frame, decodeAs .xchan F = .xchan (F.extractLsb 37 36)) ∧
  ∀ (c : BitVec 2) (s : State), ∃ t, exec (.xchan c) s = .next t ∧
    t.wires.channel.toNat = c.toNat + 1 ∧ 1 ≤ t.wires.channel.toNat ∧ t.wires.channel.toNat ≤ 4 ∧
    t = { s with wires := { s.wires with channel := t.wires.channel } }

/-- R52: `{ byte(1)[3:0], byte(2)[7:0] }`; on the port, `F[35:24]`. -/
def Obligations.XtrawJoinsNibbleAndByte : Prop :=
  (∀ (F : Frame) (s : State), ∃ t, exec (decodeAs .xtraw F) s = .next t ∧ t.wires.tempRaw = F.extractLsb 35 24) ∧
  ∀ (lo1 : Nibble) (b2 : Byte) (s : State), ∃ t, exec (.xtraw lo1 b2) s = .next t ∧
    t.wires.tempRaw = lo1 ++ b2 ∧
    t.wires.tempRaw.toNat = lo1.toNat * 256 + b2.toNat ∧
    t = { s with wires := { s.wires with tempRaw := t.wires.tempRaw } }

/-- R53 and R56: the same twelve bits, read as two's complement: 4096 less when bit 11 is set. -/
def Obligations.XtempReadsTwosComplement : Prop :=
  ∀ s : State, ∃ t, exec .xtemp s = .next t ∧
    t.wires.tempTenths = s.wires.tempRaw ∧
    (s.wires.tempRaw.getLsbD 11 = true → t.wires.tempTenths.toInt = (s.wires.tempRaw.toNat : Int) - 4096) ∧
    (s.wires.tempRaw.getLsbD 11 = false → t.wires.tempTenths.toInt = (s.wires.tempRaw.toNat : Int)) ∧
    t = { s with wires := { s.wires with tempTenths := t.wires.tempTenths } }

/-- R54: `byte(3) >> 1`, the low bit dropped; on the port, `F[23:17]`. -/
def Obligations.XhumDropsLowBit : Prop :=
  (∀ (F : Frame) (s : State), ∃ t, exec (decodeAs .xhum F) s = .next t ∧
    t.wires.humidity = F.extractLsb 23 17 ∧ t.wires.humidity.toNat = (F.extractLsb 23 16).toNat / 2) ∧
  ∀ (h : BitVec 7) (s : State), exec (.xhum h) s = .next { s with wires := { s.wires with humidity := h } }

/-- R55: bit 4 of byte 4; on the port, `F[12]`. -/
def Obligations.XbattCopiesBit : Prop :=
  (∀ (F : Frame) (s : State), ∃ t, exec (decodeAs .xbatt F) s = .next t ∧ t.wires.batteryLow = F.getLsbD 12) ∧
  ∀ (b : BitVec 1) (s : State), ∃ t, exec (.xbatt b) s = .next t ∧
    (t.wires.batteryLow = true ↔ b = 1#1) ∧
    t = { s with wires := { s.wires with batteryLow := t.wires.batteryLow } }

/-! ### Stage 4 -/

/-- R60: `-500 < t < 2000`, both bounds excluded, and the accepted bit patterns; the reason is reported only if none stands
already. The wire `raised` is the model's form of `raise` (log entry 4). -/
def Obligations.RtempExcludesBothBounds : Prop :=
  ∀ s : State, ∃ t, exec .rtemp s = .next t ∧
    (t.wires.tOk = true ↔ -500 < s.wires.tempTenths.toInt ∧ s.wires.tempTenths.toInt < 2000) ∧
    (t.wires.tOk = true ↔ s.wires.tempTenths.toNat ≤ 0x7cf ∨ 0xe0d ≤ s.wires.tempTenths.toNat) ∧
    (∀ r, s.wires.raised = some r → t.wires.raised = some r) ∧
    (s.wires.raised = none → t.wires.raised = if t.wires.tOk then none else some .temperatureOutOfRange) ∧
    t = { s with wires := { s.wires with tOk := t.wires.tOk, raised := t.wires.raised } }

/-- R61: `humidity <= 100`, and the accepted values of byte 3; the reason is reported only if none stands already. The wire
`raised` is the model's form of `raise` (log entry 4). -/
def Obligations.RhumAcceptsUpToHundred : Prop :=
  (∀ s : State, ∃ t, exec .rhum s = .next t ∧
    (t.wires.hOk = true ↔ s.wires.humidity.toNat ≤ 100) ∧
    (∀ r, s.wires.raised = some r → t.wires.raised = some r) ∧
    (s.wires.raised = none → t.wires.raised = if 100 < s.wires.humidity.toNat then some .humidityOutOfRange else none) ∧
    t = { s with wires := { s.wires with hOk := t.wires.hOk, raised := t.wires.raised } }) ∧
  ∀ (F : Frame) (s : State), ∃ t, execAll [decodeAs .xhum F, .rhum] s = .next t ∧
    (t.wires.hOk = true ↔ (F.extractLsb 23 16).toNat ≤ 0xc9)

/-! ### DECODE -/

/-- R70, R71, R72, R80, R85, R86 as one table on the port bits: the first stage that fails decides the code, a failure shows
zeros, a success shows the fields; and nothing but the output register changes (R77). -/
def Obligations.DecodeRegistersStagedResult : Prop :=
  ∀ (F : Frame) (s : State), ∃ t, exec (.decode F) s = .next t ∧
    t.out =
      (if F.extractLsb 47 16 = 0 then ⟨true, 2, 0, 0, 0, 0, false, false⟩
      else if portNibbleSum F % 64 ≠ (F.extractLsb 11 6).toNat then ⟨true, 3, 0, 0, 0, 0, false, false⟩
      else if (F.extractLsb 35 24).toInt ≤ -500 ∨ 2000 ≤ (F.extractLsb 35 24).toInt then ⟨true, 4, 0, 0, 0, 0, false, false⟩
      else if 100 < (F.extractLsb 23 17).toNat then ⟨true, 5, 0, 0, 0, 0, false, false⟩
      else ⟨true, 1, F.extractLsb 47 40, BitVec.ofNat 3 ((F.extractLsb 37 36).toNat + 1), F.extractLsb 35 24,
        F.extractLsb 23 17, F.getLsbD 12, true⟩) ∧
    t = { s with out := t.out }

/-- R79: what holds of every Reading, and that it is enough. -/
def Obligations.ReadingIffFrameConditions : Prop :=
  ∀ (F : Frame) (r : Reading), decodeFrame F = .ok r ↔
    F.extractLsb 47 16 ≠ 0 ∧ portNibbleSum F % 64 = (F.extractLsb 11 6).toNat ∧
    -499 ≤ r.tempTenths.toInt ∧ r.tempTenths.toInt ≤ 1999 ∧ r.humidity.toNat ≤ 100 ∧
    1 ≤ r.channel.toNat ∧ r.channel.toNat ≤ 4 ∧ r.channel.toNat - 1 = (F.extractLsb 37 36).toNat ∧
    r.id = F.extractLsb 47 40 ∧ r.tempTenths = F.extractLsb 35 24 ∧ r.humidity = F.extractLsb 23 17 ∧
    r.batteryLow = F.getLsbD 12 ∧ r.checksumValid = true

/-- R81 to R85: exactly when each reason is the one reported. -/
def Obligations.FailureReasonsFollowPriority : Prop :=
  ∀ F : Frame,
    (decodeFrame F = .fail .allZero ↔ F.extractLsb 47 16 = 0) ∧
    (decodeFrame F = .fail .checksumMismatch ↔
      F.extractLsb 47 16 ≠ 0 ∧ portNibbleSum F % 64 ≠ (F.extractLsb 11 6).toNat) ∧
    (decodeFrame F = .fail .temperatureOutOfRange ↔
      F.extractLsb 47 16 ≠ 0 ∧ portNibbleSum F % 64 = (F.extractLsb 11 6).toNat ∧
      ((F.extractLsb 35 24).toInt ≤ -500 ∨ 2000 ≤ (F.extractLsb 35 24).toInt)) ∧
    (decodeFrame F = .fail .humidityOutOfRange ↔
      F.extractLsb 47 16 ≠ 0 ∧ portNibbleSum F % 64 = (F.extractLsb 11 6).toNat ∧
      (-500 < (F.extractLsb 35 24).toInt ∧ (F.extractLsb 35 24).toInt < 2000) ∧ 100 < (F.extractLsb 23 17).toNat)

/-- R33, R57: the thirteen operations of a frame, executed one after the other from any state, drive every wire to the
frame's value, report the reason the early-return chain of R70 returns, hold every member of a Reading it returns, and touch
nothing but the wires; the register `DECODE` writes is the gated outcome of those wires. That wires are fields of the state
and that `raise` has a wire `raised` are the model's choices (log entries 3 and 4). -/
def Obligations.PartsInOrderRefineDecode : Prop :=
  ∀ (F : Frame) (s : State), ∃ t u,
    execAll (partsOf F) s = .next t ∧ exec (.decode F) s = .next u ∧
    t.wires = partWires F ∧ t = { s with wires := t.wires } ∧ u = { s with out := u.out } ∧
    (∀ r, decodeFrame F = .fail r ↔ t.wires.raised = some r) ∧
    (∀ r, decodeFrame F = .ok r → t.wires.raised = none ∧
      r = ⟨t.wires.id, t.wires.channel, t.wires.tempTenths, t.wires.humidity, t.wires.batteryLow, t.wires.ckOk⟩) ∧
    u.out = (match t.wires.raised with
      | none => outOfReading ⟨t.wires.id, t.wires.channel, t.wires.tempTenths, t.wires.humidity, t.wires.batteryLow, true⟩
      | some r => outOfFailure r)

/-- R30, R22: the wires of a frame's thirteen operations are RTL433's formulas on whole bytes: `(byte1 >> 4) & 0x3` and 1, `(byte1 & 0x0f) << 8`
with `byte2`, `byte3 >> 1`, `(byte4 >> 4) & 0x1`, the low nibble of byte 4 `<< 2` with `byte5 >> 6`. That wires are fields of
the state is the model's choice (log entry 3). -/
def Obligations.WiresFollowByteFormulas : Prop :=
  ∀ (F : Frame) (s : State), ∃ t, execAll (partsOf F) s = .next t ∧
    t.wires.id.toNat = (byteOf F 0).toNat ∧
    t.wires.channel.toNat = (((byteOf F 1) >>> 4) &&& 3#8).toNat + 1 ∧
    t.wires.tempRaw.toNat = ((byteOf F 1) &&& 0x0f#8).toNat * 256 + (byteOf F 2).toNat ∧
    t.wires.humidity.toNat = ((byteOf F 3) >>> 1).toNat ∧
    (t.wires.batteryLow = true ↔ ((byteOf F 4) >>> 4) &&& 1#8 = 1#8) ∧
    t.wires.crcv.toNat = ((byteOf F 4) &&& 0x0f#8).toNat * 4 + ((byteOf F 5) >>> 6).toNat ∧
    t.wires.nsum.toNat = portNibbleSum F ∧ t.wires.csum.toNat = portNibbleSum F % 64

/-- R23: two frames that differ only in the padding give the same result, the same next state and the same wires. That wires
are fields of the state is the model's choice (log entry 3). -/
def Obligations.PaddingNeverMatters : Prop :=
  ∀ (F G : Frame) (s : State), F.extractLsb 47 6 = G.extractLsb 47 6 →
    decodeFrame F = decodeFrame G ∧ exec (.decode F) s = exec (.decode G) s ∧
    execAll (partsOf F) s = execAll (partsOf G) s

/-- R32: the unassigned bits drive no output: two frames accepted by `DECODE` that differ only in `u1`, `hlsb`, `u4` and the
received checksum give the same Reading. -/
def Obligations.UnassignedBitsReachNoOutput : Prop :=
  ∀ (F G : Frame) (r q : Reading), F &&& 0xff3ffffe1000#48 = G &&& 0xff3ffffe1000#48 →
    decodeFrame F = .ok r → decodeFrame G = .ok q → r = q

/-- R37: no two different results of `DECODE` have the same register encoding. -/
def Obligations.ResultEncodingIsOneToOne : Prop :=
  ∀ F G : Frame, outOfResult (decodeFrame F) = outOfResult (decodeFrame G) → decodeFrame F = decodeFrame G

/-! ### Laws of the checksum -/

/-- R45: flipping one meaningful bit of a frame that passed Stage 1 and Stage 2 is always detected, flipping a padding bit
changes nothing. -/
def Obligations.SingleBitFlipsAreDetected : Prop :=
  (∀ (F : Frame) (k : Nat), k < 42 → decodeFrame F ≠ .fail .allZero → decodeFrame F ≠ .fail .checksumMismatch →
    decodeFrame (flipBit F k) =
      if (flipBit F k).extractLsb 47 16 = 0 then .fail .allZero else .fail .checksumMismatch) ∧
  (∀ (F : Frame) (k : Nat), 42 ≤ k → k < 48 → decodeFrame (flipBit F k) = decodeFrame F)

/-- R46: the checksum sees the nine nibbles only through their sum modulo 64; in particular any reordering of them leaves
the computed checksum, and so the comparison for an unchanged received checksum, as it was. -/
def Obligations.ChecksumSeesOnlyTheSum : Prop :=
  ∀ F G : Frame,
    (portNibbleSum F % 64 = portNibbleSum G % 64 ↔ (partWires F).csum = (partWires G).csum) ∧
    (((List.range 9).map (fun j => F.extractLsb' (44 - 4 * j) 4)).Perm
      ((List.range 9).map (fun j => G.extractLsb' (44 - 4 * j) 4)) →
        (partWires F).csum = (partWires G).csum ∧
        (F.extractLsb 11 6 = G.extractLsb 11 6 → (partWires F).ckOk = (partWires G).ckOk))

/-- R47, first sentence: for each value of the checksummed region, bytes 0..3 zero or not, there is exactly one received
checksum with `ck_ok = 1`; where bytes 0..3 are not zero, every other one is reported as a mismatch and it is not. That
`ck_ok` is read from a field of the state is the model's choice (log entry 3). -/
def Obligations.ExactlyOneChecksumMatches : Prop :=
  ∀ F : Frame, ∃ c : BitVec 6, ∀ d : BitVec 6,
    (∀ s : State, ∃ t, execAll (partsOf (withCrcv F d)) s = .next t ∧ (t.wires.ckOk = true ↔ d = c)) ∧
    (F.extractLsb 47 16 ≠ 0 → (decodeFrame (withCrcv F d) = .fail .checksumMismatch ↔ d ≠ c))

/-! ### Frame format and decoding -/

/-- R31, R30: an operation encoded with its operands in their places is read back unchanged, for every operation and every
operand. -/
def Obligations.DecodeAfterEncodeIsIdentity : Prop := ∀ i : Instr, decodeAs i.row (encode i) = i

/-- R30: "Every bit of the container belongs to exactly one field": splitting and assembling are inverse to each other, and
each field stands at its port bits. -/
def Obligations.FieldsPartitionTheFrame : Prop :=
  (∀ F : Frame, frameOfFields (fieldsOf F) = F) ∧ (∀ f : FrameFields, fieldsOf (frameOfFields f) = f) ∧
  ∀ F : Frame, fieldsOf F = ⟨F.extractLsb 47 40, F.extractLsb 39 38, F.extractLsb 37 36, F.extractLsb 35 24, F.extractLsb 23 17,
    F.extractLsb 16 16, F.extractLsb 15 13, F.extractLsb 12 12, F.extractLsb 11 6, F.extractLsb 5 0⟩

/-- R30, column "read by", R23 and section 8: each of the thirteen parts depends on exactly the bits its row marks, and
`DECODE` on no bit but the 42 meaningful ones: nothing reads the padding. -/
def Obligations.OperationsReadOnlyMarkedBits : Prop :=
  (∀ r ∈ partRows, ∀ F G : Frame, decodeAs r F = decodeAs r G ↔ F &&& rowReads r = G &&& rowReads r) ∧
  (∀ r ∈ partRows, rowReads r &&& 0x00000000003f#48 = 0) ∧
  ∀ F G : Frame, F &&& 0xffffffffffc0#48 = G &&& 0xffffffffffc0#48 → decodeFrame F = decodeFrame G

/-- R34 and section 8: every row but `ZCHK` matches every frame, and `ZCHK`'s pattern is the set of `AllZero` frames. -/
def Obligations.ZchkPatternIsAllZeroClass : Prop :=
  ∀ F : Frame, (rowMatches .zchk F = true ↔ decodeFrame F = .fail .allZero) ∧
    ∀ r : Row, r ≠ .zchk → rowMatches r F = true

/-- R24, R95: six bytes are a frame and decode to `DECODE` of exactly those bytes; any other number is turned away. -/
def Obligations.OnlySixBytesAreAFrame : Prop :=
  (∀ F : Frame, decodeBytes (bytesOfFrame F) = .ok (.decode F)) ∧
  ∀ r : RawFrame, (r.length = 6 → ∃ F, decodeBytes r = .ok (.decode F) ∧ bytesOfFrame F = r) ∧
    (r.length ≠ 6 → decodeBytes r = .error (.wrongLength r.length))

/-- R5, R21: the access primitives agree: a nibble is half a byte, a bit of a byte is a bit of the transmission. -/
def Obligations.AccessPrimitivesAgree : Prop :=
  ∀ (F : Frame) (i : Fin 6), byteOf F i = hiOf F i ++ loOf F i ∧
    hiOf F i = nibOf F ⟨2 * i.val, by omega⟩ ∧ loOf F i = nibOf F ⟨2 * i.val + 1, by omega⟩ ∧
    ∀ m : Fin 8, (byteOf F i).getLsbD (7 - m.val) = fbitOf F ⟨8 * i.val + m.val, by omega⟩

/-- The worked frame of S1 read through the decoder, written out byte by byte, and as a word of the operation table, whose bits
the model numbers as the port does (DEDUCED, log entry 7). -/
def Obligations.WorkedFrameDecodes : Prop :=
  decodeBytes [0x0e#8, 0x20#8, 0xcd#8, 0x80#8, 0x0c#8, 0x40#8] = .ok (.decode 0x0e20cd800c40#48) ∧
  decodeTableWord 48 0x0e20cd800c40 = some (.decode 0x0e20cd800c40#48) ∧
  decodeAs .nsum 0x0e20cd800c40#48 = .nsum 0x0 0xe 0x2 0x0 0xc 0xd 0x8 0x0 0x0 ∧
  decodeAs .crcv 0x0e20cd800c40#48 = .crcv 0xc 0x1 ∧
  decodeAs .xtraw 0x0e20cd800c40#48 = .xtraw 0x0 0xcd ∧
  decodeAs .xchan 0x0e20cd800c40#48 = .xchan 0x2

/-! ### The edge -/

/-- R74, second branch: an edge with a frame runs the operation its bytes decode to, the cycle's input used up and its wires
gone. The list of inputs and the wires as fields are the model's choices (log entries 1 and 3). -/
def Obligations.StepRunsDecodedFrame : Prop :=
  ∀ (s : State) (F : Frame) (rest : List Ports) (i : Instr), decodeBytes (bytesOfFrame F) = .ok i → i.wf = true →
    step { s with inputs := ⟨false, true, F⟩ :: rest } =
      exec i { s with inputs := rest, wires := Wires.idle }

/-- R100, R102, R17: reset wins over a frame and leaves every field of the output register zero, whatever it held. That the
edge uses up one listed input and leaves the wires idle is the model's choice (log entries 1 and 3). -/
def Obligations.ResetEdgeClearsOutput : Prop :=
  ∀ (s : State) (fv : Bool) (F : Frame) (rest : List Ports),
    step { s with inputs := ⟨true, fv, F⟩ :: rest } =
      .next { s with inputs := rest, wires := Wires.idle, out := ⟨false, 0, 0, 0, 0, 0, false, false⟩ }

/-- R76, R28: an edge with neither `rst` nor `frame_valid` drops `out_valid`, holds the other seven fields and ignores
`frame`. That the edge uses up one listed input and leaves the wires idle is the model's choice (log entries 1 and 3). -/
def Obligations.IdleEdgeHoldsResult : Prop :=
  ∀ (s : State) (F : Frame) (rest : List Ports),
    step { s with inputs := ⟨false, false, F⟩ :: rest } =
      .next { s with inputs := rest, wires := Wires.idle, out := { s.out with outValid := false } }

/-- R75: after each edge `out_valid` is `frame_valid and not rst` as sampled, listed input or free. -/
def Obligations.OutValidIsFrameValidNotReset : Prop :=
  ∀ s : State, ∃ t, step s = .next t ∧ t.out.outValid = ((sampledPorts s).frameValid && !(sampledPorts s).rst)

/-- R89, R104, R77: every step from every state answers a next state; the inputs to come lose one entry and nothing more.
Inputs, wires and index are the model's own fields (log entries 1 to 3). -/
def Obligations.EveryEdgeCompletes : Prop :=
  ∀ s : State, ∃ t, step s = .next t ∧ t.inputs = s.inputs.tail ∧
    (s.inputs ≠ [] → t.freeCount = s.freeCount) ∧
    t.wires = Wires.idle

/-- R10, R26: the result of a sampled frame depends on that frame alone, not on the old register, wires or later inputs. -/
def Obligations.ResultDependsOnFrameAlone : Prop :=
  ∀ (F : Frame) (s u : State) (rest more : List Ports), ∃ t v,
    step { s with inputs := ⟨false, true, F⟩ :: rest } = .next t ∧
    step { u with inputs := ⟨false, true, F⟩ :: more } = .next v ∧ t.out = v.out ∧ t.wires = v.wires

/-- R12: no wire value crosses an edge, whatever the edge and the state before it; and the thirteen operations of a frame
never read a value an earlier frame produced: from any two states they drive the same wires. That wires are fields of the
state is the model's choice (log entry 3). -/
def Obligations.NoWireValueCrossesAnEdge : Prop :=
  (∀ s t : State, step s = .next t → t.wires = Wires.idle) ∧
  ∀ (F : Frame) (s u : State), ∃ t v, execAll (partsOf F) s = .next t ∧ execAll (partsOf F) u = .next v ∧ t.wires = v.wires

/-- R10, R101, R17: two runs over the same cycles, from any two states at all (before reset included), show the same output
register once one of the cycles has been a reset or a frame. -/
def Obligations.OutputForgetsStartState : Prop :=
  ∀ (ps rest more : List Ports) (s u : State), (∃ p ∈ ps, p.rst = true ∨ p.frameValid = true) →
    ∃ t v, core.run ps.length { s with inputs := ps ++ rest } = .next t ∧
      core.run ps.length { u with inputs := ps ++ more } = .next v ∧ t.out = v.out

/-! ### The invariant -/

/-- R17, R37: the register after reset is legal, and a reset edge from any state reaches that register. -/
def Obligations.ResetRegisterIsLegal : Prop :=
  LegalOut State.reset.out ∧ State.reset.out = ⟨false, 0, 0, 0, 0, 0, false, false⟩ ∧
  ∀ s : State, (sampledPorts s).rst = true → ∃ t, step s = .next t ∧ t.out = State.reset.out

/-- R37, R72, R79, R80: every step keeps the output register legal. -/
def Obligations.StepKeepsOutputLegal : Prop :=
  ∀ s t : State, LegalOut s.out → step s = .next t → LegalOut t.out

/-- R37: an edge with `rst` or a frame makes the output register legal whatever it held before, an unproduced value
included. -/
def Obligations.EventMakesOutputLegal : Prop :=
  ∀ s : State, (sampledPorts s).rst = true ∨ (sampledPorts s).frameValid = true →
    ∃ t, step s = .next t ∧ LegalOut t.out

/-- R11, R71, R14: in a legal register `checksum_valid` is 1 exactly when `status` is 1, the codes 6 and 7 do not occur, and
`status` 0 never stands with `out_valid`; no operation but `DECODE` changes the register at all. -/
def Obligations.StatusAndChecksumValidAgree : Prop :=
  (∀ o : OutReg, LegalOut o → (o.checksumValid = true ↔ o.status = 1) ∧ o.status.toNat ≤ 5 ∧ (o.status = 0 → o.outValid = false)) ∧
  ∀ (i : Instr) (s t : State), i.row ≠ .decode → exec i s = .next t →
    t.out = s.out ∧ t.inputs = s.inputs ∧ t.freeCount = s.freeCount
end

