-- ==== Sys2Proof/Laws/Decode.lean ====
section
/-! SUPPORT. Small facts about the decoder and the encoder. -/

namespace Sys2Proof

@[simp] theorem decodeAs_row (r : Row) (F : Frame) : (decodeAs r F).row = r := by
  cases r <;> rfl

theorem instr_wf (i : Instr) : i.wf = true := by
  cases i <;> rfl

@[simp] theorem decodeWord_eq (F : Frame) : decodeWord F = .decode F := rfl

theorem decodeBytes_six (b0 b1 b2 b3 b4 b5 : Byte) :
    decodeBytes [b0, b1, b2, b3, b4, b5] = .ok (.decode (frameOfBytes b0 b1 b2 b3 b4 b5)) := rfl

end Sys2Proof
end

