-- ==== Sys2Proof/Laws/Flags.lean ====
section
/-! SUPPORT. When each one-bit result is 1, in arithmetic. -/

namespace Sys2Proof.Machine

theorem allzeroFlag_iff (b0 b1 b2 b3 : Byte) :
    allzeroFlag b0 b1 b2 b3 = true ↔ b0 = 0 ∧ b1 = 0 ∧ b2 = 0 ∧ b3 = 0 := by
  simp [allzeroFlag, and_assoc]

theorem ckOkFlag_iff (csum crcv : BitVec 6) : ckOkFlag csum crcv = true ↔ csum = crcv := by
  simp [ckOkFlag]

theorem tOkFlag_iff (t : BitVec 12) : tOkFlag t = true ↔ -500 < t.toInt ∧ t.toInt < 2000 := by
  simp [tOkFlag]

theorem hOkFlag_iff (h : BitVec 7) : hOkFlag h = true ↔ h.toNat ≤ 100 := by
  simp [hOkFlag]

theorem outOfFailure_outValid (r : FailureReason) : (outOfFailure r).outValid = true := rfl

theorem outOfResult_outValid (r : Result) : (outOfResult r).outValid = true := by
  cases r <;> rfl

theorem reasonCode_injective (r q : FailureReason) (h : reasonCode r = reasonCode q) : r = q := by
  cases r <;> cases q <;> first | rfl | exact absurd h (by decide)

end Sys2Proof.Machine
end

