-- ==== Sys2Proof/Laws/State.lean ====
section
/-! SUPPORT. What each update leaves and what it writes, one lemma per field per update. -/

namespace Sys2Proof.Machine

@[simp] theorem putOut_out (o : OutReg) (s : State) : (putOut o s).out = o := rfl
@[simp] theorem putOut_wires (o : OutReg) (s : State) : (putOut o s).wires = s.wires := rfl
@[simp] theorem putOut_inputs (o : OutReg) (s : State) : (putOut o s).inputs = s.inputs := rfl
@[simp] theorem putOut_freeCount (o : OutReg) (s : State) : (putOut o s).freeCount = s.freeCount := rfl

@[simp] theorem putWires_out (w : Wires) (s : State) : (putWires w s).out = s.out := rfl
@[simp] theorem putWires_wires (w : Wires) (s : State) : (putWires w s).wires = w := rfl
@[simp] theorem putWires_inputs (w : Wires) (s : State) : (putWires w s).inputs = s.inputs := rfl
@[simp] theorem putWires_freeCount (w : Wires) (s : State) : (putWires w s).freeCount = s.freeCount := rfl

@[simp] theorem putOut_putOut (o o' : OutReg) (s : State) : putOut o (putOut o' s) = putOut o s := rfl
@[simp] theorem putWires_putWires (w w' : Wires) (s : State) : putWires w (putWires w' s) = putWires w s := rfl
@[simp] theorem putOut_self (s : State) : putOut s.out s = s := rfl
@[simp] theorem putWires_self (s : State) : putWires s.wires s = s := rfl
theorem putOut_putWires (o : OutReg) (w : Wires) (s : State) : putOut o (putWires w s) = putWires w (putOut o s) := rfl

@[simp] theorem useInput_out (s : State) : (useInput s).out = s.out := by
  unfold useInput; split <;> rfl
@[simp] theorem useInput_wires (s : State) : (useInput s).wires = s.wires := by
  unfold useInput; split <;> rfl
@[simp] theorem useInput_inputs (s : State) : (useInput s).inputs = s.inputs.tail := by
  unfold useInput; split <;> simp_all
theorem useInput_freeCount (s : State) :
    (useInput s).freeCount = if s.inputs = [] then s.freeCount + 1 else s.freeCount := by
  unfold useInput; split <;> simp_all

@[simp] theorem passCycle_out (s : State) : (passCycle s).out = s.out := by simp [passCycle]
@[simp] theorem passCycle_wires (s : State) : (passCycle s).wires = Wires.idle := rfl
@[simp] theorem passCycle_inputs (s : State) : (passCycle s).inputs = s.inputs.tail := by simp [passCycle]
theorem passCycle_freeCount (s : State) :
    (passCycle s).freeCount = if s.inputs = [] then s.freeCount + 1 else s.freeCount := useInput_freeCount s

@[simp] theorem reset_out : State.reset.out = OutReg.reset := rfl
@[simp] theorem reset_wires : State.reset.wires = Wires.idle := rfl
@[simp] theorem reset_inputs : State.reset.inputs = [] := rfl

end Sys2Proof.Machine
end

