-- ==== Sys2Proof/Laws/Ops.lean ====
section
/-! SUPPORT. What the shared operations and the edge can do, said once for the proofs that cite them. -/

namespace Sys2Proof.Machine

@[simp] theorem raiseIf_some (c : Bool) (r e : FailureReason) : raiseIf c r (some e) = some e := rfl
@[simp] theorem raiseIf_true (r : FailureReason) : raiseIf true r none = some r := rfl
@[simp] theorem raiseIf_false (r : FailureReason) : raiseIf false r none = none := rfl

theorem raiseIf_eq_or (c : Bool) (r : FailureReason) (e : Option FailureReason) :
    raiseIf c r e = e.or (if c then some r else none) := by
  cases e <;> simp [raiseIf]

@[simp] theorem sampledPorts_listed (p : Ports) (rest : List Ports) (s : State) (h : s.inputs = p :: rest) :
    sampledPorts s = p := by
  simp [sampledPorts, h]

theorem sampledPorts_free (s : State) (h : s.inputs = []) : sampledPorts s = freePorts s.freeCount := by
  simp [sampledPorts, h]

theorem passCycle_listed (p : Ports) (rest : List Ports) (s : State) (h : s.inputs = p :: rest) :
    passCycle s = { s with inputs := rest, wires := Wires.idle } := by
  simp [passCycle, useInput, putWires, h]

/-- The kinds of edge, with everything each does. -/
theorem step_cases (s : State) :
    ((sampledPorts s).rst = true ∧ step s = .next (putOut OutReg.reset (passCycle s))) ∨
    ((sampledPorts s).rst = false ∧ (sampledPorts s).frameValid = true ∧
      step s = .next (putOut (outOfResult (decodeFrame (sampledPorts s).frame)) (passCycle s))) ∨
    ((sampledPorts s).rst = false ∧ (sampledPorts s).frameValid = false ∧
      step s = .next (putOut { s.out with outValid := false } (passCycle s))) := by
  cases hr : (sampledPorts s).rst with
  | true => exact .inl ⟨rfl, by simp [step, hr, resetEdge]⟩
  | false =>
    cases hv : (sampledPorts s).frameValid with
    | true => exact .inr (.inl ⟨rfl, rfl, by simp [step, hr, hv, decodeWord, decodeAs, exec, execDecode]⟩)
    | false => exact .inr (.inr ⟨rfl, rfl, by simp [step, hr, hv, idleEdge]⟩)

end Sys2Proof.Machine
end

