-- ==== Sys2Proof/Laws/PerInstr.lean ====
section
/-! SUPPORT. Statements about every operation as syntax, one lemma per constructor. -/

namespace Sys2Proof.Laws

/-- A concatenation is cleared by a mask when each part is cleared by its part of the mask. -/
theorem append_cleared {m n : Nat} {a c : BitVec m} {b d : BitVec n} (left : a &&& c = 0#m) (right : b &&& d = 0#n) :
    (a ++ b) &&& (c ++ d) = 0#(m + n) := by
  apply BitVec.eq_of_getLsbD_eq
  intro i _
  have hl : ∀ k, (a.getLsbD k && c.getLsbD k) = false := fun k => by
    rw [← BitVec.getLsbD_and, left, BitVec.getLsbD_zero]
  have hr : ∀ k, (b.getLsbD k && d.getLsbD k) = false := fun k => by
    rw [← BitVec.getLsbD_and, right, BitVec.getLsbD_zero]
  rw [BitVec.getLsbD_and, BitVec.getLsbD_append, BitVec.getLsbD_append, BitVec.getLsbD_zero]
  split
  · exact hr i
  · exact hl _

end Sys2Proof.Laws

namespace Sys2Proof.Laws.UnreadBitsClear

/-- The word an operation encodes to is 0 at every bit its row does not read (spec/30_encoding.md section 8). -/
abbrev Statement (i : Instr) : Prop := encode i &&& ~~~ rowReads i.row = 0#48

theorem decode (F : Frame) : Statement (.decode F) := by
  have mask : ~~~ rowReads .decode = 0#48 := by decide
  simp only [Statement, Instr.row, mask, BitVec.and_zero]

theorem zchk (b0 b1 b2 b3 : Byte) : Statement (.zchk b0 b1 b2 b3) := by
  have mask : ~~~ rowReads .zchk = 0#8 ++ 0#8 ++ 0#8 ++ 0#8 ++ BitVec.allOnes 16 := by decide
  rw [Statement, Instr.row, mask]
  exact append_cleared (append_cleared (append_cleared (append_cleared BitVec.and_zero BitVec.and_zero) BitVec.and_zero) BitVec.and_zero) BitVec.zero_and

theorem nsum (n0 n1 n2 n3 n4 n5 n6 n7 n8 : Nibble) : Statement (.nsum n0 n1 n2 n3 n4 n5 n6 n7 n8) := by
  have mask : ~~~ rowReads .nsum =
      0#4 ++ 0#4 ++ 0#4 ++ 0#4 ++ 0#4 ++ 0#4 ++ 0#4 ++ 0#4 ++ 0#4 ++ BitVec.allOnes 12 := by decide
  rw [Statement, Instr.row, mask]
  exact append_cleared (append_cleared (append_cleared (append_cleared (append_cleared (append_cleared (append_cleared (append_cleared (append_cleared BitVec.and_zero BitVec.and_zero) BitVec.and_zero) BitVec.and_zero) BitVec.and_zero) BitVec.and_zero) BitVec.and_zero) BitVec.and_zero) BitVec.and_zero) BitVec.zero_and

theorem csum : Statement .csum := by decide

theorem crcv (lo4 : Nibble) (top5 : BitVec 2) : Statement (.crcv lo4 top5) := by
  have mask : ~~~ rowReads .crcv = BitVec.allOnes 36 ++ 0#4 ++ 0#2 ++ BitVec.allOnes 6 := by decide
  rw [Statement, Instr.row, mask]
  exact append_cleared (append_cleared (append_cleared BitVec.zero_and BitVec.and_zero) BitVec.and_zero) BitVec.zero_and

theorem ccmp : Statement .ccmp := by decide

theorem xid (b0 : Byte) : Statement (.xid b0) := by
  have mask : ~~~ rowReads .xid = 0#8 ++ BitVec.allOnes 40 := by decide
  rw [Statement, Instr.row, mask]
  exact append_cleared BitVec.and_zero BitVec.zero_and

theorem xchan (c : BitVec 2) : Statement (.xchan c) := by
  have mask : ~~~ rowReads .xchan = BitVec.allOnes 10 ++ 0#2 ++ BitVec.allOnes 36 := by decide
  rw [Statement, Instr.row, mask]
  exact append_cleared (append_cleared BitVec.zero_and BitVec.and_zero) BitVec.zero_and

theorem xtraw (lo1 : Nibble) (b2 : Byte) : Statement (.xtraw lo1 b2) := by
  have mask : ~~~ rowReads .xtraw = BitVec.allOnes 12 ++ 0#4 ++ 0#8 ++ BitVec.allOnes 24 := by decide
  rw [Statement, Instr.row, mask]
  exact append_cleared (append_cleared (append_cleared BitVec.zero_and BitVec.and_zero) BitVec.and_zero) BitVec.zero_and

theorem xtemp : Statement .xtemp := by decide

theorem xhum (h : BitVec 7) : Statement (.xhum h) := by
  have mask : ~~~ rowReads .xhum = BitVec.allOnes 24 ++ 0#7 ++ BitVec.allOnes 17 := by decide
  rw [Statement, Instr.row, mask]
  exact append_cleared (append_cleared BitVec.zero_and BitVec.and_zero) BitVec.zero_and

theorem xbatt (b : BitVec 1) : Statement (.xbatt b) := by
  have mask : ~~~ rowReads .xbatt = BitVec.allOnes 35 ++ 0#1 ++ BitVec.allOnes 12 := by decide
  rw [Statement, Instr.row, mask]
  exact append_cleared (append_cleared BitVec.zero_and BitVec.and_zero) BitVec.zero_and

theorem rtemp : Statement .rtemp := by decide

theorem rhum : Statement .rhum := by decide

end Sys2Proof.Laws.UnreadBitsClear
end

