-- ==== Sys2Proof/Tests/Slice0.lean ====
section
/-! SUPPORT. The model's own tests. Expected values come from spec/95_test_vectors.md (S1 and the vectors named), from the
corner cases of the rules, or from the frame pattern of spec/30_encoding.md R30 written out by hand. Then one witness for the
hypotheses of each statement that has any. -/

namespace Sys2Proof.Tests

open Sys2Proof.Machine

/-! ### Helpers -/

def wiresAfter (i : Instr) (w : Wires) : Option Wires :=
  match exec i { State.reset with wires := w } with
  | .next t => some t.wires
  | .fault _ => none
  | .refused _ => none

def outAfterStep (s : State) : Option OutReg :=
  match step s with
  | .next t => some t.out
  | .fault _ => none
  | .refused _ => none

/-- Reset state with one cycle listed. -/
def oneCycle (o : OutReg) (rst frameValid : Bool) (frame : Frame) : State :=
  { State.reset with out := o, inputs := [⟨rst, frameValid, frame⟩] }

/-- The Reading of S1 on the output register. -/
def outS1 : OutReg := ⟨true, 1, 14, 3, 0x0cd, 64, false, true⟩

/-- The worked frame of S1, its pattern written field by field: id, u1, chan_raw, temp_raw, hum, hlsb, u4, batt, crcv, pad. -/
def frameS1 : Frame :=
  0b00001110#8 ++ 0b00#2 ++ 0b10#2 ++ 0b000011001101#12 ++ 0b1000000#7 ++ 0b0#1 ++ 0b000#3 ++ 0b0#1 ++ 0b110001#6 ++ 0b000000#6

/-! ### WellFormed: ill-formed terms are refused -/

theorem test_wf_refuses_five_bytes : RawFrame.wf [0x0e, 0x20, 0xcd, 0x80, 0x0c] = false := by decide
theorem test_wf_refuses_seven_bytes : RawFrame.wf [0x0e, 0x20, 0xcd, 0x80, 0x0c, 0x40, 0x00] = false := by decide
theorem test_wf_accepts_six_bytes : RawFrame.wf [0x0e, 0x20, 0xcd, 0x80, 0x0c, 0x40] = true := by decide
theorem test_decode_refuses_five_bytes :
    decodeBytes [0x0e, 0x20, 0xcd, 0x80, 0x0c] = .error (.wrongLength 5) := by rfl

/-! ### Decoding -/

theorem test_pattern_is_port_value : frameS1 = 0x0e20cd800c40#48 := by decide
theorem test_decode_word : decodeTableWord 48 0x0e20cd800c40 = some (.decode frameS1) := by decide
theorem test_decode_as_zchk : decodeAs .zchk frameS1 = .zchk 0x0e 0x20 0xcd 0x80 := by decide
theorem test_decode_as_nsum : decodeAs .nsum frameS1 = .nsum 0x0 0xe 0x2 0x0 0xc 0xd 0x8 0x0 0x0 := by decide
theorem test_decode_as_csum : decodeAs .csum frameS1 = .csum := by decide
theorem test_decode_as_crcv : decodeAs .crcv frameS1 = .crcv 0b1100 0b01 := by decide
theorem test_decode_as_ccmp : decodeAs .ccmp frameS1 = .ccmp := by decide
theorem test_decode_as_xid : decodeAs .xid frameS1 = .xid 0x0e := by decide
theorem test_decode_as_xchan : decodeAs .xchan frameS1 = .xchan 0b10 := by decide
theorem test_decode_as_xtraw : decodeAs .xtraw frameS1 = .xtraw 0x0 0xcd := by decide
theorem test_decode_as_xtemp : decodeAs .xtemp frameS1 = .xtemp := by decide
theorem test_decode_as_xhum : decodeAs .xhum frameS1 = .xhum 0b1000000 := by decide
theorem test_decode_as_xbatt : decodeAs .xbatt 0xa73123501800#48 = .xbatt 1 := by decide
theorem test_decode_as_rtemp : decodeAs .rtemp frameS1 = .rtemp := by decide
theorem test_decode_as_rhum : decodeAs .rhum frameS1 = .rhum := by decide
theorem test_fetch_word_runs :
    outAfterStep (State.reset.withFetchWord 48 0x0e20cd800c40) = some outS1 := by decide

/-! ### One operation -/

/-- R40, corner case (d): only `byte(3)[0]` set is not all-zero. -/
theorem test_zchk_hlsb : (wiresAfter (.zchk 0 0 0 1) Wires.idle).map (·.raised) = some none := by decide
theorem test_zchk_zero : (wiresAfter (.zchk 0 0 0 0) Wires.idle).map (·.raised) = some (some .allZero) := by decide
/-- S1 and V6. -/
theorem test_nsum_s1 : (wiresAfter (.nsum 0 0xe 2 0 0xc 0xd 8 0 0) Wires.idle).map (·.nsum) = some 49 := by decide
theorem test_nsum_v6 :
    (wiresAfter (.nsum 0xf 0xf 0xf 0xf 0xf 0xf 0xf 0xf 0xf) Wires.idle).map (·.nsum) = some 135 := by decide
/-- V6 and V8. -/
theorem test_csum_v6 : (wiresAfter .csum { Wires.idle with nsum := 135 }).map (·.csum) = some 7 := by decide
theorem test_csum_v8 : (wiresAfter .csum { Wires.idle with nsum := 64, csum := 9 }).map (·.csum) = some 0 := by decide
/-- S1 and V13. -/
theorem test_crcv_s1 : (wiresAfter (.crcv 0xc 1) Wires.idle).map (·.crcv) = some 49 := by decide
theorem test_crcv_v13 : (wiresAfter (.crcv 0xc 2) Wires.idle).map (·.crcv) = some 50 := by decide
theorem test_ccmp_differs : (wiresAfter .ccmp { Wires.idle with csum := 49, crcv := 50 }).map (·.raised) =
    some (some .checksumMismatch) := by decide
/-- R85: an all-zero prefix is reported before a bad checksum (V2). -/
theorem test_ccmp_after_zchk :
    (wiresAfter .ccmp { Wires.idle with csum := 15, crcv := 63, raised := some .allZero }).map (·.raised) =
      some (some .allZero) := by decide
theorem test_xid_s1 : (wiresAfter (.xid 0x0e) Wires.idle).map (·.id) = some 14 := by decide
/-- R51, corner cases. -/
theorem test_xchan_top : (wiresAfter (.xchan 0b11) Wires.idle).map (·.channel) = some 4 := by decide
theorem test_xchan_bottom : (wiresAfter (.xchan 0b00) Wires.idle).map (·.channel) = some 1 := by decide
theorem test_xtraw_s3 : (wiresAfter (.xtraw 0xf 0xa5) Wires.idle).map (·.tempRaw) = some 0xfa5 := by decide
/-- S3: 0xfa5 is -91 tenths; R53: 0x800 is -2048. -/
theorem test_xtemp_s3 :
    (wiresAfter .xtemp { Wires.idle with tempRaw := 0xfa5 }).map (·.tempTenths.toInt) = some (-91) := by decide
theorem test_xtemp_min :
    (wiresAfter .xtemp { Wires.idle with tempRaw := 0x800 }).map (·.tempTenths.toInt) = some (-2048) := by decide
theorem test_xhum_s4 : (wiresAfter (decodeAs .xhum 0x000000800000#48) Wires.idle).map (·.humidity) = some 64 := by decide
/-- V37: byte 3 = 0xc9 gives 100, the low bit dropped. -/
theorem test_xhum_v37 : (wiresAfter (decodeAs .xhum 0x5510cdc90e40#48) Wires.idle).map (·.humidity) = some 100 := by decide
theorem test_xbatt_set : (wiresAfter (.xbatt 1) Wires.idle).map (·.batteryLow) = some true := by decide
/-- V28 and V29: exactly -50.0 rejected, -49.9 accepted. -/
theorem test_rtemp_v28 : (wiresAfter .rtemp { Wires.idle with tempTenths := 0xe0c }).map (·.raised) =
    some (some .temperatureOutOfRange) := by decide
theorem test_rtemp_v29 : (wiresAfter .rtemp { Wires.idle with tempTenths := 0xe0d }).map (·.tOk) = some true := by decide
theorem test_rhum_v38 : (wiresAfter .rhum { Wires.idle with humidity := 101 }).map (·.raised) =
    some (some .humidityOutOfRange) := by decide
theorem test_rhum_v36 : (wiresAfter .rhum { Wires.idle with humidity := 100 }).map (·.hOk) = some true := by decide

/-! ### DECODE and the edge -/

/-- Vectors of spec/95_test_vectors.md section 2 whose frame is a Reading: V4, V7, V8, V9, V15, V19, V21, V29, V30, V33. -/
theorem test_decode_readings :
    [0x000000010040#48, 0xffffffc9ff80#48, 0xff00ff400000#48, 0xff37cf4001c0#48, 0x0e20cd800c7f#48, 0xa731235007c0#48,
      0xa7f12351fec0#48, 0x550e0d640bc0#48, 0x550fff640040#48, 0x0e2fa5800d80#48].map decodeFrame =
    [.ok ⟨0, 1, 0x000, 0, false, true⟩, .ok ⟨255, 4, 0xfff, 100, true, true⟩, .ok ⟨255, 1, 0x0ff, 32, false, true⟩,
      .ok ⟨255, 4, 0x7cf, 32, false, true⟩, .ok ⟨14, 3, 0x0cd, 64, false, true⟩, .ok ⟨167, 4, 0x123, 40, false, true⟩,
      .ok ⟨167, 4, 0x123, 40, true, true⟩, .ok ⟨85, 1, 0xe0d, 50, false, true⟩, .ok ⟨85, 1, 0xfff, 50, false, true⟩,
      .ok ⟨14, 3, 0xfa5, 64, false, true⟩] := by decide

/-- Vectors that fail: V1, V2, V5, V6, V13, V23, V28, V38, V40, V41. -/
theorem test_decode_failures :
    [0x000000000000#48, 0x00000000ffff#48, 0x000000010000#48, 0xfffffffff1c0#48, 0x0e20cd800c80#48, 0x5507d0640a00#48,
      0x550e0c640b80#48, 0x5510cdca0e80#48, 0x5510cdff0080#48, 0x5517d0ff0f40#48].map decodeFrame =
    [.fail .allZero, .fail .allZero, .fail .checksumMismatch, .fail .humidityOutOfRange, .fail .checksumMismatch,
      .fail .temperatureOutOfRange, .fail .temperatureOutOfRange, .fail .humidityOutOfRange, .fail .humidityOutOfRange,
      .fail .temperatureOutOfRange] := by decide

/-- P1, cycle 3: an all-zero `frame` with `frame_valid = 0` is ignored and the result held. -/
theorem test_step_holds : outAfterStep (oneCycle outS1 false false 0) = some { outS1 with outValid := false } := by decide
/-- R12: wires driven in one cycle are gone after its edge. -/
theorem test_step_drops_wires : (match step { oneCycle outS1 false false 0 with wires := partWires frameS1 } with
    | .next t => some t.wires
    | .fault _ => none
    | .refused _ => none) = some Wires.idle := by decide
/-- P3, cycle 4: reset wins over a frame. -/
theorem test_step_reset_wins : outAfterStep (oneCycle outS1 true true 0xa73123501800#48) = some OutReg.reset := by decide
/-- P2, cycle 4: a humidity failure shows zeros. -/
theorem test_step_failure : outAfterStep (oneCycle outS1 false true 0x5510cdca0e80#48) =
    some ⟨true, 5, 0, 0, 0, 0, false, false⟩ := by decide

/-! ### Witnesses: the hypotheses of the statements can be met -/

/-- CsumReducesModulo64: the ranges at their ends (63, 64, 127, 128, 135). -/
theorem witness_csum_ranges :
    [63, 64, 127, 128, 135].map (fun n => (wiresAfter .csum { Wires.idle with nsum := BitVec.ofNat 8 n }).map (·.csum.toNat)) =
      [some 63, some 0, some 63, some 0, some 7] := by decide
/-- ZchkDrivesAllzero: both values of the wire. -/
theorem witness_zchk_both : (wiresAfter (.zchk 0 0 0 0) Wires.idle).map (·.allzero) = some true ∧
    (wiresAfter (.zchk 0 0 0 1) Wires.idle).map (·.allzero) = some false := by decide
/-- CcmpComparesChecksums, RtempExcludesBothBounds, RhumAcceptsUpToHundred: a reason standing, and none. -/
theorem witness_raised_both : (∃ r, ({ Wires.idle with raised := some .allZero } : Wires).raised = some r) ∧
    Wires.idle.raised = none := ⟨⟨.allZero, rfl⟩, rfl⟩
/-- XtempReadsTwosComplement: both values of bit 11, at its edge. -/
theorem witness_xtemp_both : (0x800#12).getLsbD 11 = true ∧ (0x7ff#12).getLsbD 11 = false := by decide
/-- PartsInOrderRefineDecode: a frame with a Reading and one without. -/
theorem witness_parts_both : decodeFrame frameS1 = .ok ⟨14, 3, 0x0cd, 64, false, true⟩ ∧
    decodeFrame 0x0e20cd800c80#48 = .fail .checksumMismatch := by decide
/-- PaddingNeverMatters: S1 and V15, two different frames. -/
theorem witness_padding : frameS1.extractLsb 47 6 = (0x0e20cd800c7f#48).extractLsb 47 6 ∧ frameS1 ≠ 0x0e20cd800c7f#48 := by
  decide
/-- UnassignedBitsReachNoOutput: V20 and V21. -/
theorem witness_unassigned : 0xa73123501800#48 &&& 0xff3ffffe1000#48 = 0xa7f12351fec0#48 &&& 0xff3ffffe1000#48 ∧
    decodeFrame 0xa73123501800#48 = .ok ⟨167, 4, 0x123, 40, true, true⟩ ∧
    decodeFrame 0xa7f12351fec0#48 = .ok ⟨167, 4, 0x123, 40, true, true⟩ := by decide
/-- ResultEncodingIsOneToOne: two different frames with one encoding. -/
theorem witness_one_encoding :
    outOfResult (decodeFrame frameS1) = outOfResult (decodeFrame 0x0e20cd800c7f#48) := by decide
/-- SingleBitFlipsAreDetected: the worked frame, first and last meaningful bit and first padding bit. -/
theorem witness_single_bit : decodeFrame frameS1 ≠ .fail .allZero ∧ decodeFrame frameS1 ≠ .fail .checksumMismatch ∧
    decodeFrame (flipBit frameS1 0) = .fail .checksumMismatch ∧ decodeFrame (flipBit frameS1 41) = .fail .checksumMismatch ∧
    decodeFrame (flipBit frameS1 42) = decodeFrame frameS1 := by decide
/-- The exception of R45: V4 with its one set bit of bytes 0..3 cleared. -/
theorem witness_single_bit_exception : decodeFrame 0x000000010040#48 ≠ .fail .checksumMismatch ∧
    decodeFrame (flipBit 0x000000010040#48 31) = .fail .allZero := by decide
/-- ChecksumSeesOnlyTheSum: S1 and V10, the nibbles of byte 0 swapped. -/
theorem witness_reordered : ((List.range 9).map (fun j => frameS1.extractLsb' (44 - 4 * j) 4)).Perm
      ((List.range 9).map (fun j => (0xe020cd800c40#48).extractLsb' (44 - 4 * j) 4)) ∧
    frameS1.extractLsb 11 6 = (0xe020cd800c40#48).extractLsb 11 6 := by decide
/-- OperationsReadOnlyMarkedBits: a part row; S1 and V15 agree on the 42 meaningful bits. -/
theorem witness_meaningful_bits : Row.zchk ∈ partRows ∧
    frameS1 &&& 0xffffffffffc0#48 = 0x0e20cd800c7f#48 &&& 0xffffffffffc0#48 := by decide
/-- ExactlyOneChecksumMatches: the worked frame. -/
theorem witness_not_all_zero : frameS1.extractLsb 47 16 ≠ 0 := by decide
/-- OnlySixBytesAreAFrame: both lengths, at the edge. -/
theorem witness_lengths : ([0x0e, 0x20, 0xcd, 0x80, 0x0c, 0x40] : RawFrame).length = 6 ∧
    ([0x0e, 0x20, 0xcd, 0x80, 0x0c] : RawFrame).length ≠ 6 := by decide
/-- ZchkPatternIsAllZeroClass: a row that is not `ZCHK`. -/
theorem witness_other_row : Row.nsum ≠ Row.zchk := by decide
/-- StepRunsDecodedFrame: a frame whose bytes decode to a well-formed operation. -/
theorem witness_step_decodes : decodeBytes (bytesOfFrame frameS1) = .ok (.decode frameS1) ∧
    (Instr.decode frameS1).wf = true := by
  exact ⟨by rfl, by rfl⟩
/-- EveryEdgeCompletes, EventMakesOutputLegal, ResetRegisterIsLegal: an edge with an input listed, an idle one, and one with a frame. -/
theorem witness_edges : (oneCycle outS1 false false 0).inputs ≠ [] ∧
    (sampledPorts (oneCycle outS1 false false 0)).frameValid = false ∧
    (sampledPorts (oneCycle outS1 true false 0)).rst = true ∧
    (sampledPorts (oneCycle outS1 false true frameS1)).frameValid = true := by decide
/-- OutputForgetsStartState: a cycle list with an event in it. -/
theorem witness_event_listed : ∃ p ∈ [(⟨false, false, 0⟩ : Ports), ⟨false, true, frameS1⟩],
    p.rst = true ∨ p.frameValid = true := ⟨⟨false, true, frameS1⟩, by simp, .inr rfl⟩
/-- StepKeepsOutputLegal, NoWireValueCrossesAnEdge: legal registers of each of the three kinds, and a step from one. -/
theorem witness_legal : LegalOut OutReg.reset ∧ LegalOut outS1 ∧ LegalOut ⟨true, 5, 0, 0, 0, 0, false, false⟩ := by decide
theorem witness_legal_step : ∃ t, step (oneCycle outS1 false false 0) = .next t := ⟨_, rfl⟩
/-- StatusAndChecksumValidAgree: an operation other than `DECODE` that answers a next state; status 0. -/
theorem witness_part : Instr.csum.row ≠ .decode ∧ (∃ t, exec .csum State.reset = .next t) ∧ OutReg.reset.status = 0 :=
  ⟨by decide, ⟨_, rfl⟩, rfl⟩

end Sys2Proof.Tests
end

/-! Stage 1 and Stage 2 (spec/40_frame_validation.md R41 to R43): what `NSUM`, `CSUM` and `CRCV` do to the state, what their
values are in arithmetic, and the statements about them. -/

namespace Sys2Proof.Machine

/-! ### What the three operations do to the state -/

theorem exec_nsum (n0 n1 n2 n3 n4 n5 n6 n7 n8 : Nibble) (s : State) :
    exec (.nsum n0 n1 n2 n3 n4 n5 n6 n7 n8) s =
      .next (putWires { s.wires with nsum := nsumOf n0 n1 n2 n3 n4 n5 n6 n7 n8 } s) := rfl

theorem exec_decodeAs_nsum (F : Frame) (s : State) :
    exec (decodeAs .nsum F) s = .next (putWires { s.wires with nsum := frameNsum F } s) := rfl

theorem exec_csum (s : State) :
    exec .csum s = .next (putWires { s.wires with csum := csumOf s.wires.nsum } s) := rfl

theorem exec_crcv (lo4 : Nibble) (top5 : BitVec 2) (s : State) :
    exec (.crcv lo4 top5) s = .next (putWires { s.wires with crcv := crcvOf lo4 top5 } s) := rfl

theorem exec_decodeAs_crcv (F : Frame) (s : State) :
    exec (decodeAs .crcv F) s = .next (putWires { s.wires with crcv := crcvOf (loOf F 4) (crcvTopOf F) } s) := rfl

/-! ### The nibble sum -/

theorem nibbleSum_le (n0 n1 n2 n3 n4 n5 n6 n7 n8 : Nibble) :
    n0.toNat + n1.toNat + n2.toNat + n3.toNat + n4.toNat + n5.toNat + n6.toNat + n7.toNat + n8.toNat ≤ 135 := by
  have nibble_le (n : Nibble) : n.toNat ≤ 15 := Nat.le_of_lt_succ n.isLt
  linarith [nibble_le n0, nibble_le n1, nibble_le n2, nibble_le n3, nibble_le n4, nibble_le n5, nibble_le n6,
    nibble_le n7, nibble_le n8]

/-- No carry is lost: at most 135, the integer sum fits the eight bits. -/
theorem nsumOf_toNat (n0 n1 n2 n3 n4 n5 n6 n7 n8 : Nibble) :
    (nsumOf n0 n1 n2 n3 n4 n5 n6 n7 n8).toNat =
      n0.toNat + n1.toNat + n2.toNat + n3.toNat + n4.toNat + n5.toNat + n6.toNat + n7.toNat + n8.toNat := by
  have bound := nibbleSum_le n0 n1 n2 n3 n4 n5 n6 n7 n8
  rw [nsumOf, BitVec.toNat_ofNat, Nat.mod_eq_of_lt (by omega)]

theorem frameNsum_toNat (F : Frame) : (frameNsum F).toNat = portNibbleSum F := by
  simp [frameNsum, nsumOf_toNat, portNibbleSum, List.range_succ, nibOf, add_assoc]

/-- Settles O2: with at most 135 in the sum, eight bits hold it exactly, and the nine nibbles of a frame are its port slices. -/
theorem nsumAddsNineNibbles : Obligations.NsumAddsNineNibbles := by
  refine ⟨fun F s => ⟨_, exec_decodeAs_nsum F s, frameNsum_toNat F⟩, fun n0 n1 n2 n3 n4 n5 n6 n7 n8 s => ?_⟩
  have value := nsumOf_toNat n0 n1 n2 n3 n4 n5 n6 n7 n8
  refine ⟨_, exec_nsum n0 n1 n2 n3 n4 n5 n6 n7 n8 s, ?_, ?_, rfl⟩
  · simpa [add_assoc] using value
  · exact value.trans_le (nibbleSum_le n0 n1 n2 n3 n4 n5 n6 n7 n8)

/-! ### The reduction modulo 64 -/

theorem csumOf_toNat (nsum : BitVec 8) : (csumOf nsum).toNat = nsum.toNat % 64 := by
  simp [csumOf]

theorem csumOf_eq_extractLsb (nsum : BitVec 8) : csumOf nsum = nsum.extractLsb 5 0 := by
  apply BitVec.eq_of_toNat_eq
  rw [csumOf_toNat, BitVec.extractLsb_toNat, Nat.shiftRight_zero]

/-- Settles O3: the wire is the sum modulo 64, from which the value on each of the three ranges follows. -/
theorem csumReducesModulo64 : Obligations.CsumReducesModulo64 := by
  intro s
  have value := csumOf_toNat s.wires.nsum
  refine ⟨_, exec_csum s, csumOf_eq_extractLsb _, value, fun _ => value.trans ?_, fun _ _ => value.trans ?_,
    fun _ _ => value.trans ?_, rfl⟩ <;> omega

/-! ### The received checksum -/

/-- Shifting the high part into place and joining with `|` is concatenation. -/
theorem shiftLeft_or_eq_append {m n : Nat} (a : BitVec m) (b : BitVec n) :
    (a.setWidth (m + n) <<< n) ||| b.setWidth (m + n) = a ++ b := by
  rw [BitVec.append_def, BitVec.shiftLeftZeroExtend_eq, BitVec.setWidth'_eq]

theorem append_toNat {m n : Nat} (a : BitVec m) (b : BitVec n) : (a ++ b).toNat = a.toNat * 2 ^ n + b.toNat := by
  rw [BitVec.toNat_append, ← Nat.shiftLeft_add_eq_or_of_lt b.isLt, Nat.shiftLeft_eq]

/-- A slice that lies inside a slice is a slice of the whole word. -/
theorem extractLsb'_extractLsb'_of_add_le {w start len start' len' : Nat} (x : BitVec w) (inside : start' + len' ≤ len) :
    (x.extractLsb' start len).extractLsb' start' len' = x.extractLsb' (start + start') len' := by
  apply BitVec.eq_of_getLsbD_eq
  intro i hi
  have hlt : start' + i < len := by omega
  simp only [BitVec.getLsbD_extractLsb', hi, hlt, decide_true, Bool.true_and, Nat.add_assoc]

theorem crcvOf_eq_append (lo4 : Nibble) (top5 : BitVec 2) : crcvOf lo4 top5 = lo4 ++ top5 :=
  shiftLeft_or_eq_append lo4 top5

theorem loOf_eq_extractLsb' (F : Frame) (i : Fin 6) : loOf F i = F.extractLsb' (40 - 8 * i.val) 4 :=
  extractLsb'_extractLsb'_of_add_le F (by decide)

theorem crcvTopOf_eq_extractLsb' (F : Frame) : crcvTopOf F = F.extractLsb' 6 2 :=
  extractLsb'_extractLsb'_of_add_le F (by decide)

/-- The two pieces of the received checksum are adjacent on the port (R31). -/
theorem crcvOf_frame (F : Frame) : crcvOf (loOf F 4) (crcvTopOf F) = F.extractLsb 11 6 := by
  rw [crcvOf_eq_append, loOf_eq_extractLsb', crcvTopOf_eq_extractLsb']
  exact BitVec.extractLsb'_append_extractLsb'_eq_extractLsb' rfl

/-- Settles O4: the two shifted pieces share no bit, so joining them is concatenation, and on the port they are adjacent. -/
theorem crcvJoinsNibbleAndTopBits : Obligations.CrcvJoinsNibbleAndTopBits := by
  refine ⟨fun F s => ⟨_, exec_decodeAs_crcv F s, crcvOf_frame F⟩, fun lo4 top5 s => ?_⟩
  have value := crcvOf_eq_append lo4 top5
  exact ⟨_, exec_crcv lo4 top5 s, value, (congrArg BitVec.toNat value).trans (append_toNat lo4 top5), rfl⟩

end Sys2Proof.Machine

/-! Stage 3 (spec/41_field_extraction.md R50 to R52, R54, R55): what `XID`, `XCHAN`, `XTRAW`, `XHUM` and `XBATT` do to the
state, where their operands stand on the port, what their values are in arithmetic, and the statements about them. -/

namespace Sys2Proof.Machine

/-! ### What the five operations do to the state -/

theorem exec_xid (b0 : Byte) (s : State) : exec (.xid b0) s = .next (putWires { s.wires with id := b0 } s) := rfl

theorem exec_xchan (c : BitVec 2) (s : State) :
    exec (.xchan c) s = .next (putWires { s.wires with channel := channelOf c } s) := rfl

theorem exec_xtraw (lo1 : Nibble) (b2 : Byte) (s : State) :
    exec (.xtraw lo1 b2) s = .next (putWires { s.wires with tempRaw := tempRawOf lo1 b2 } s) := rfl

theorem exec_decodeAs_xtraw (F : Frame) (s : State) :
    exec (decodeAs .xtraw F) s = .next (putWires { s.wires with tempRaw := tempRawOf (loOf F 1) (byteOf F 2) } s) := rfl

theorem exec_xhum (h : BitVec 7) (s : State) : exec (.xhum h) s = .next (putWires { s.wires with humidity := h } s) := rfl

theorem exec_decodeAs_xhum (F : Frame) (s : State) :
    exec (decodeAs .xhum F) s = .next (putWires { s.wires with humidity := humBitsOf F } s) := rfl

theorem exec_xbatt (b : BitVec 1) (s : State) :
    exec (.xbatt b) s = .next (putWires { s.wires with batteryLow := batteryFlag b } s) := rfl

theorem exec_decodeAs_xbatt (F : Frame) (s : State) :
    exec (decodeAs .xbatt F) s = .next (putWires { s.wires with batteryLow := batteryFlag (battBitOf F) } s) := rfl

/-! ### The identity number -/

theorem byteOf_zero_eq_extractLsb (F : Frame) : byteOf F 0 = F.extractLsb 47 40 := rfl

/-- Settles O6: the operand is the port's top byte, and the operation drives it on `id` as it stands. -/
theorem xidTakesByteZero : Obligations.XidTakesByteZero :=
  ⟨fun F => congrArg Instr.xid (byteOf_zero_eq_extractLsb F), exec_xid⟩

/-! ### The channel -/

theorem chanRawOf_eq_extractLsb (F : Frame) : chanRawOf F = F.extractLsb 37 36 :=
  extractLsb'_extractLsb'_of_add_le F (by decide)

/-- No carry is lost: two bits and one are at most 4, and three bits hold that. -/
theorem channelOf_toNat (c : BitVec 2) : (channelOf c).toNat = c.toNat + 1 := by
  have bound : c.toNat < 4 := c.isLt
  simp only [channelOf, Config.channelOffset, BitVec.toNat_add, BitVec.toNat_setWidth, BitVec.toNat_ofNat]
  omega

/-- Settles O7: the sum is exact in three bits, so it runs from 1 to 4 as `chan_raw` runs from 0 to 3. -/
theorem xchanAddsOne : Obligations.XchanAddsOne := by
  refine ⟨fun F => congrArg Instr.xchan (chanRawOf_eq_extractLsb F), fun c s => ?_⟩
  have value := channelOf_toNat c
  have bound : c.toNat < 4 := c.isLt
  refine ⟨_, exec_xchan c s, value, ?_, ?_, rfl⟩ <;> simp only [putWires_wires] <;> omega

/-! ### The raw temperature -/

theorem tempRawOf_eq_append (lo1 : Nibble) (b2 : Byte) : tempRawOf lo1 b2 = lo1 ++ b2 :=
  shiftLeft_or_eq_append lo1 b2

/-- The low nibble of byte 1 and byte 2 are adjacent on the port (R31). -/
theorem tempRawOf_frame (F : Frame) : tempRawOf (loOf F 1) (byteOf F 2) = F.extractLsb 35 24 := by
  rw [tempRawOf_eq_append, loOf_eq_extractLsb', byteOf]
  exact BitVec.extractLsb'_append_extractLsb'_eq_extractLsb' rfl

/-- Settles O8: the nibble and the byte share no bit, so joining them is concatenation, and on the port they are adjacent. -/
theorem xtrawJoinsNibbleAndByte : Obligations.XtrawJoinsNibbleAndByte := by
  refine ⟨fun F s => ⟨_, exec_decodeAs_xtraw F s, tempRawOf_frame F⟩, fun lo1 b2 s => ?_⟩
  have value := tempRawOf_eq_append lo1 b2
  exact ⟨_, exec_xtraw lo1 b2 s, value, (congrArg BitVec.toNat value).trans (append_toNat lo1 b2), rfl⟩

/-! ### The humidity -/

theorem humBitsOf_eq_extractLsb (F : Frame) : humBitsOf F = F.extractLsb 23 17 :=
  extractLsb'_extractLsb'_of_add_le F (by decide)

/-- Dropping the low bit halves byte 3, rounding down. -/
theorem humBitsOf_toNat (F : Frame) : (humBitsOf F).toNat = (byteOf F 3).toNat / 2 := by
  have bound : (byteOf F 3).toNat < 256 := (byteOf F 3).isLt
  rw [humBitsOf, BitVec.extractLsb'_toNat, Nat.shiftRight_eq_div_pow]
  omega

/-- Settles O10: the seven bits are the port's `F[23:17]`, and byte 3, the port's `F[23:16]`, halved. -/
theorem xhumDropsLowBit : Obligations.XhumDropsLowBit :=
  ⟨fun F s => ⟨_, exec_decodeAs_xhum F s, humBitsOf_eq_extractLsb F, humBitsOf_toNat F⟩, exec_xhum⟩

/-! ### The battery flag -/

theorem batteryFlag_iff : ∀ b : BitVec 1, batteryFlag b = true ↔ b = 1#1 := by
  decide

/-- Bit 4 of byte 4 is bit 12 of the port; the bits above it in byte 4 do not enter. -/
theorem batteryFlag_battBitOf (F : Frame) : batteryFlag (battBitOf F) = F.getLsbD 12 := by
  have slice : battBitOf F = F.extractLsb' 12 1 := extractLsb'_extractLsb'_of_add_le F (by decide)
  simp [batteryFlag, slice]

/-- Settles O11: the flag is its one-bit operand, which on the port is bit 12. -/
theorem xbattCopiesBit : Obligations.XbattCopiesBit :=
  ⟨fun F s => ⟨_, exec_decodeAs_xbatt F s, batteryFlag_battBitOf F⟩,
    fun b s => ⟨_, exec_xbatt b s, batteryFlag_iff b, rfl⟩⟩

end Sys2Proof.Machine

/-! `DECODE` (spec/43_decode_top.md R70 to R75): each test of its early-return chain on the port bits, the chain as one table,
and what it and the edge leave on the output register. -/

namespace Sys2Proof.Machine

/-! ### Stage 1 on the port -/

theorem append_eq_zero_iff {m n : Nat} (a : BitVec m) (b : BitVec n) : a ++ b = 0#(m + n) ↔ a = 0#m ∧ b = 0#n := by
  simp [← BitVec.toNat_inj]

theorem allzeroFlag_iff_append (b0 b1 b2 b3 : Byte) :
    allzeroFlag b0 b1 b2 b3 = true ↔ b0 ++ b1 ++ b2 ++ b3 = 0#32 := by
  rw [allzeroFlag_iff, append_eq_zero_iff, append_eq_zero_iff, append_eq_zero_iff, and_assoc, and_assoc]
  rfl

/-- Bytes 0 to 3 are adjacent on the port (R21). -/
theorem bytesZeroToThree_append (F : Frame) :
    byteOf F 0 ++ byteOf F 1 ++ byteOf F 2 ++ byteOf F 3 = F.extractLsb 47 16 := by
  have first : byteOf F 0 ++ byteOf F 1 = F.extractLsb' 32 16 := BitVec.extractLsb'_append_extractLsb'_eq_extractLsb' rfl
  have second : F.extractLsb' 32 16 ++ byteOf F 2 = F.extractLsb' 24 24 :=
    BitVec.extractLsb'_append_extractLsb'_eq_extractLsb' rfl
  rw [first, second]
  exact BitVec.extractLsb'_append_extractLsb'_eq_extractLsb' rfl

theorem allzeroFlag_frame (F : Frame) :
    allzeroFlag (byteOf F 0) (byteOf F 1) (byteOf F 2) (byteOf F 3) = true ↔ F.extractLsb 47 16 = 0 := by
  rw [allzeroFlag_iff_append, bytesZeroToThree_append]
  rfl

/-! ### Stage 2 on the port -/

theorem ckOkFlag_frame (F : Frame) :
    ckOkFlag (csumOf (frameNsum F)) (crcvOf (loOf F 4) (crcvTopOf F)) = true ↔
      portNibbleSum F % 64 = (F.extractLsb 11 6).toNat := by
  rw [ckOkFlag_iff, crcvOf_frame, ← BitVec.toNat_inj, csumOf_toNat, frameNsum_toNat]

theorem checksumFails_frame (F : Frame) :
    (!ckOkFlag (csumOf (frameNsum F)) (crcvOf (loOf F 4) (crcvTopOf F))) = true ↔
      portNibbleSum F % 64 ≠ (F.extractLsb 11 6).toNat := by
  rw [Bool.not_eq_true', ← Bool.not_eq_true, ckOkFlag_frame]

/-! ### Stage 3 on the port -/

/-- Taking 4096 away when bit 11 is set is reading the twelve bits as two's complement (R53, R56). -/
theorem signedTenths_eq_toInt (x : BitVec 12) : signedTenths x = x.toInt := by
  rw [BitVec.toInt_eq_msb_cond, BitVec.msb_eq_getLsbD_last]
  rfl

theorem tempTenthsOf_eq_self (x : BitVec 12) : tempTenthsOf x = x := by
  rw [tempTenthsOf, signedTenths_eq_toInt, BitVec.ofInt_toInt]

theorem tempTenthsOf_frame (F : Frame) :
    tempTenthsOf (tempRawOf (loOf F 1) (byteOf F 2)) = F.extractLsb 35 24 := by
  rw [tempTenthsOf_eq_self, tempRawOf_frame]

theorem channelOf_eq_ofNat (c : BitVec 2) : channelOf c = BitVec.ofNat 3 (c.toNat + 1) := by
  rw [← channelOf_toNat, BitVec.ofNat_toNat, BitVec.setWidth_eq]

/-! ### Stage 4 -/

theorem temperatureFails_iff (t : BitVec 12) : (!tOkFlag t) = true ↔ t.toInt ≤ -500 ∨ 2000 ≤ t.toInt := by
  rw [Bool.not_eq_true', ← Bool.not_eq_true, tOkFlag_iff]
  omega

theorem humidityFails_iff (h : BitVec 7) : (!hOkFlag h) = true ↔ 100 < h.toNat := by
  rw [Bool.not_eq_true', ← Bool.not_eq_true, hOkFlag_iff, not_le]

/-! ### The chain and its registered result -/

/-- The Reading of a frame that passes every stage, its members at their port bits (R71). -/
def portReading (F : Frame) : Reading :=
  ⟨F.extractLsb 47 40, BitVec.ofNat 3 ((F.extractLsb 37 36).toNat + 1), F.extractLsb 35 24, F.extractLsb 23 17,
    F.getLsbD 12, true⟩

/-- The early-return chain of R70 with every test and every field on the port bits. -/
theorem decodeFrame_eq_portChain (F : Frame) :
    decodeFrame F =
      if F.extractLsb 47 16 = 0 then .fail .allZero
      else if portNibbleSum F % 64 ≠ (F.extractLsb 11 6).toNat then .fail .checksumMismatch
      else if (F.extractLsb 35 24).toInt ≤ -500 ∨ 2000 ≤ (F.extractLsb 35 24).toInt then .fail .temperatureOutOfRange
      else if 100 < (F.extractLsb 23 17).toNat then .fail .humidityOutOfRange
      else .ok (portReading F) := by
  simp only [decodeFrame, tempTenthsOf_frame, humBitsOf_eq_extractLsb, chanRawOf_eq_extractLsb, channelOf_eq_ofNat,
    batteryFlag_battBitOf]
  exact if_congr (allzeroFlag_frame F) rfl <| if_congr (checksumFails_frame F) rfl <|
    if_congr (temperatureFails_iff _) rfl <| if_congr (humidityFails_iff _) rfl rfl

theorem exec_decode (F : Frame) (s : State) :
    exec (.decode F) s = .next (putOut (outOfResult (decodeFrame F)) s) := rfl

/-- Settles O14: the register takes the encoding of the chain's result, and encoding an `if` is encoding its branches. -/
theorem decodeRegistersStagedResult : Obligations.DecodeRegistersStagedResult := by
  intro F s
  refine ⟨_, exec_decode F s, ?_, rfl⟩
  rw [putOut_out, decodeFrame_eq_portChain]
  simp only [apply_ite outOfResult]
  rfl

/-! ### The edge -/

/-- Settles O35: a reset edge clears `out_valid`, the encoding of any result sets it, and an idle edge drops it. -/
theorem outValidIsFrameValidNotReset : Obligations.OutValidIsFrameValidNotReset := by
  intro s
  obtain ⟨rst, next⟩ | ⟨rst, valid, next⟩ | ⟨rst, valid, next⟩ := step_cases s
  · exact ⟨_, next, by simp [rst, OutReg.reset]⟩
  · exact ⟨_, next, by simp [rst, valid, outOfResult_outValid]⟩
  · exact ⟨_, next, by simp [valid]⟩

end Sys2Proof.Machine

/-! The failure reasons (spec/60_exceptions.md R81 to R85): when an early return reports a reason, and the exact cause of each
of the four. -/

namespace Sys2Proof.Machine

/-- An early return reports its own reason if its test fires, and leaves every reason to the rest of the chain if it does not. -/
theorem earlyReturn_eq_fail_iff {fires : Prop} [Decidable fires] {own reported : FailureReason} {rest : Result} :
    (if fires then .fail own else rest) = Result.fail reported ↔
      fires ∧ own = reported ∨ ¬fires ∧ rest = .fail reported := by
  rw [ite_eq_iff, Result.fail.injEq]

/-- Settles O16: the four early returns of the port chain have different reasons, so a reason is reported exactly when its own
test fires and no test before it does. -/
theorem failureReasonsFollowPriority : Obligations.FailureReasonsFollowPriority := by
  intro F
  simp only [decodeFrame_eq_portChain, earlyReturn_eq_fail_iff, reduceCtorEq, ne_eq, not_not, not_or, not_le, and_true,
    and_false, or_false, false_or, and_self]

end Sys2Proof.Machine

/-! Slices of a word: when two words agree on one, the mask that marks one, and where the pieces of a frame stand on the port
(spec/30_encoding.md R30, R31 and section 8). -/

namespace Sys2Proof.Machine

/-! ### Slices and the masks that mark them -/

theorem extractLsb'_eq_iff {w start len : Nat} (x y : BitVec w) :
    x.extractLsb' start len = y.extractLsb' start len ↔
      ∀ i, start ≤ i → i < start + len → x.getLsbD i = y.getLsbD i := by
  simp only [BitVec.eq_of_getLsbD_eq_iff, BitVec.getLsbD_extractLsb']
  constructor
  · intro agree i low high
    obtain ⟨k, rfl⟩ := Nat.exists_eq_add_of_le low
    simpa [show k < len by omega] using agree k (by omega)
  · intro agree k hk
    rw [agree (start + k) (by omega) (by omega)]

/-- Words that agree on a slice agree on every slice inside it. -/
theorem extractLsb'_eq_of_inside {w start len start' len' : Nat} {x y : BitVec w}
    (agree : x.extractLsb' start len = y.extractLsb' start len) (low : start ≤ start')
    (high : start' + len' ≤ start + len) : x.extractLsb' start' len' = y.extractLsb' start' len' := by
  rw [extractLsb'_eq_iff] at agree ⊢
  exact fun i _ _ => agree i (by omega) (by omega)

/-- The mask with ones on `len` bits from bit `start`. -/
def sliceMask (start len : Nat) : Frame := (BitVec.allOnes len).setWidth 48 <<< start

theorem getLsbD_sliceMask {start len i : Nat} (port : i < 48) :
    (sliceMask start len).getLsbD i = true ↔ start ≤ i ∧ i < start + len := by
  simp only [sliceMask, BitVec.getLsbD_shiftLeft, BitVec.getLsbD_setWidth, BitVec.getLsbD_allOnes, Bool.and_eq_true,
    Bool.not_eq_true', decide_eq_true_eq, decide_eq_false_iff_not]
  omega

/-- Two words agree under a mask exactly when they agree on the bits it marks. -/
theorem and_eq_and_iff {w : Nat} (x y m : BitVec w) :
    x &&& m = y &&& m ↔ ∀ i < w, m.getLsbD i = true → x.getLsbD i = y.getLsbD i := by
  simp only [BitVec.eq_of_getLsbD_eq_iff, BitVec.getLsbD_and]
  refine forall₂_congr fun i _ => ?_
  cases m.getLsbD i <;> simp

theorem and_sliceMask_eq_iff (F G : Frame) (start len : Nat) :
    F &&& sliceMask start len = G &&& sliceMask start len ↔ F.extractLsb' start len = G.extractLsb' start len := by
  rw [and_eq_and_iff, extractLsb'_eq_iff]
  constructor
  · intro agree i low high
    by_cases port : i < 48
    · exact agree i port ((getLsbD_sliceMask port).mpr ⟨low, high⟩)
    · rw [BitVec.getLsbD_of_ge _ _ (not_lt.mp port), BitVec.getLsbD_of_ge _ _ (not_lt.mp port)]
  · intro agree i port marked
    obtain ⟨low, high⟩ := (getLsbD_sliceMask port).mp marked
    exact agree i low high

/-- Two words agree on the bits of two masks together exactly when they agree on those of each. -/
theorem and_or_eq_iff {w : Nat} (x y m n : BitVec w) :
    x &&& (m ||| n) = y &&& (m ||| n) ↔ x &&& m = y &&& m ∧ x &&& n = y &&& n := by
  simp only [and_eq_and_iff, BitVec.getLsbD_or, Bool.or_eq_true, or_imp, forall_and]

/-- The mask with ones on every slice listed, a slice given by its lowest bit and its length. -/
def slicesMask (slices : List (Nat × Nat)) : Frame := slices.foldr (fun p mask => sliceMask p.1 p.2 ||| mask) 0#48

theorem and_slicesMask_eq_iff (F G : Frame) (slices : List (Nat × Nat)) :
    F &&& slicesMask slices = G &&& slicesMask slices ↔
      ∀ p ∈ slices, F.extractLsb' p.1 p.2 = G.extractLsb' p.1 p.2 := by
  induction slices with
  | nil => simp [slicesMask]
  | cons p rest ih =>
    rw [List.forall_mem_cons, ← ih, ← and_sliceMask_eq_iff, ← and_or_eq_iff]
    rfl

/-! ### The pieces of a frame on the port -/

theorem hiOf_eq_extractLsb' (F : Frame) (i : Fin 6) : hiOf F i = F.extractLsb' (40 - 8 * i.val + 4) 4 :=
  extractLsb'_extractLsb'_of_add_le F (by decide)

theorem battBitOf_eq_extractLsb (F : Frame) : battBitOf F = F.extractLsb 12 12 :=
  extractLsb'_extractLsb'_of_add_le F (by decide)

/-- The six bytes of a frame, joined in their order, are the frame (R21). -/
theorem frameOfBytes_byteOf (F : Frame) :
    frameOfBytes (byteOf F 0) (byteOf F 1) (byteOf F 2) (byteOf F 3) (byteOf F 4) (byteOf F 5) = F := by
  rw [frameOfBytes, bytesZeroToThree_append, BitVec.extractLsb]
  simp only [byteOf]
  iterate 2 rw [BitVec.extractLsb'_append_extractLsb'_eq_extractLsb' (by rfl)]
  exact BitVec.extractLsb'_eq_self

theorem bytesOfFrame_frameOfBytes (b0 b1 b2 b3 b4 b5 : Byte) :
    bytesOfFrame (frameOfBytes b0 b1 b2 b3 b4 b5) = [b0, b1, b2, b3, b4, b5] := by
  simp (disch := decide) only [bytesOfFrame, byteOf, frameOfBytes, BitVec.extractLsb'_append_eq_of_le,
    BitVec.extractLsb'_append_eq_of_add_le]
  simp

/-- Settles O30: nested slices are slices of the port, and the positions agree. -/
theorem accessPrimitivesAgree : Obligations.AccessPrimitivesAgree := by
  intro F i
  have range := i.isLt
  refine ⟨?_, ?_, ?_, fun m => ?_⟩
  · exact (BitVec.extractLsb'_append_extractLsb' (w := 4) (len := 4) (x := byteOf F i)).symm
  · rw [hiOf_eq_extractLsb', nibOf]
    congr 1
    dsimp only
    omega
  · rw [loOf_eq_extractLsb', nibOf]
    congr 1
    dsimp only
    omega
  · have inByte : 7 - m.val < 8 := by omega
    simp only [byteOf, fbitOf, BitVec.getLsbD_extractLsb', inByte, decide_true, Bool.true_and]
    congr 1
    omega

end Sys2Proof.Machine

/-! The decoder and the encoder (spec/30_encoding.md R30 to R35, spec/20_memory.md R24): each is undone by the other, for
operations, fields and bytes, and a row's operands depend on the bits it marks. -/

namespace Sys2Proof.Machine

/-! ### Operations -/

/-- Settles O25: an operand's slice of the encoded word skips the pieces beside it and is the operand. -/
theorem decodeAfterEncodeIsIdentity : Obligations.DecodeAfterEncodeIsIdentity := by
  intro i
  cases i with
  | decode | csum | ccmp | xtemp | rtemp | rhum => rfl
  | zchk | nsum | crcv | xid | xchan | xtraw | xhum | xbatt =>
    simp (disch := decide) only [decodeAs, encode, Instr.row, byteOf, nibOf, loOf_eq_extractLsb', crcvTopOf_eq_extractLsb',
      chanRawOf_eq_extractLsb, humBitsOf_eq_extractLsb, battBitOf_eq_extractLsb, BitVec.extractLsb,
      BitVec.extractLsb'_append_eq_of_le, BitVec.extractLsb'_append_eq_of_add_le]
    simp

/-! ### Fields -/

theorem fieldsOf_eq_portSlices (F : Frame) :
    fieldsOf F = ⟨F.extractLsb 47 40, F.extractLsb 39 38, F.extractLsb 37 36, F.extractLsb 35 24, F.extractLsb 23 17,
      F.extractLsb 16 16, F.extractLsb 15 13, F.extractLsb 12 12, F.extractLsb 11 6, F.extractLsb 5 0⟩ := by
  have tempRaw := tempRawOf_frame F
  have crcv := crcvOf_frame F
  rw [tempRawOf_eq_append] at tempRaw
  rw [crcvOf_eq_append] at crcv
  rw [fieldsOf, tempRaw, crcv, chanRawOf_eq_extractLsb, humBitsOf_eq_extractLsb, battBitOf_eq_extractLsb]
  congr 1 <;> exact extractLsb'_extractLsb'_of_add_le F (by decide)

theorem fieldsOf_frameOfFields (f : FrameFields) : fieldsOf (frameOfFields f) = f := by
  simp (disch := decide) only [fieldsOf_eq_portSlices, frameOfFields, BitVec.extractLsb,
    BitVec.extractLsb'_append_eq_of_le, BitVec.extractLsb'_append_eq_of_add_le, Nat.reduceSub, BitVec.extractLsb'_eq_self]

/-- The ten fields are adjacent on the port, from bit 47 down to bit 0. -/
theorem frameOfFields_fieldsOf (F : Frame) : frameOfFields (fieldsOf F) = F := by
  rw [fieldsOf_eq_portSlices, frameOfFields]
  simp only [BitVec.extractLsb]
  iterate 9 rw [BitVec.extractLsb'_append_extractLsb'_eq_extractLsb' (by rfl)]
  exact BitVec.extractLsb'_eq_self

/-- Settles O26: the port slices of the ten fields are adjacent and cover the frame, so joining them undoes the split, and
each slice of a joined frame is its field. -/
theorem fieldsPartitionTheFrame : Obligations.FieldsPartitionTheFrame :=
  ⟨frameOfFields_fieldsOf, fieldsOf_frameOfFields, fieldsOf_eq_portSlices⟩

/-! ### Bytes -/

theorem decodeBytes_bytesOfFrame (F : Frame) : decodeBytes (bytesOfFrame F) = .ok (.decode F) := by
  rw [bytesOfFrame, decodeBytes_six, frameOfBytes_byteOf]

theorem decodeBytes_of_length_ne (r : RawFrame) (length : r.length ≠ 6) :
    decodeBytes r = .error (.wrongLength r.length) := by
  unfold decodeBytes
  split
  · exact absurd rfl length
  · rfl

/-- Settles O29: six bytes are the bytes of the frame they join to, and a list of six is no other. -/
theorem onlySixBytesAreAFrame : Obligations.OnlySixBytesAreAFrame := by
  refine ⟨decodeBytes_bytesOfFrame, fun r => ⟨fun length => ?_, decodeBytes_of_length_ne r⟩⟩
  match r, length with
  | [b0, b1, b2, b3, b4, b5], _ =>
    exact ⟨_, decodeBytes_six b0 b1 b2 b3 b4 b5, bytesOfFrame_frameOfBytes b0 b1 b2 b3 b4 b5⟩

/-- Settles O31: the frame's bytes decode to it, as bytes and as a table word, and its operands are computed. -/
theorem workedFrameDecodes : Obligations.WorkedFrameDecodes := by
  unfold Obligations.WorkedFrameDecodes
  decide

/-! ### The bits a row marks -/

/-- Where the operands of a row stand in the frame (R33, column "reads"), as pairs of lowest bit and length. -/
def rowSlices : Row → List (Nat × Nat)
  | .decode => [(0, 48)]
  | .zchk => [(40, 8), (32, 8), (24, 8), (16, 8)]
  | .nsum => [(44, 4), (40, 4), (36, 4), (32, 4), (28, 4), (24, 4), (20, 4), (16, 4), (12, 4)]
  | .crcv => [(8, 4), (6, 2)]
  | .xid => [(40, 8)]
  | .xchan => [(36, 2)]
  | .xtraw => [(32, 4), (24, 8)]
  | .xhum => [(17, 7)]
  | .xbatt => [(12, 1)]
  | .csum | .ccmp | .xtemp | .rtemp | .rhum => []

/-- The encoding column of a row marks its operands and no other bit (section 8). -/
theorem rowReads_eq_slicesMask (r : Row) : rowReads r = slicesMask (rowSlices r) := by
  cases r <;> decide

/-- The operations a row reads from two frames are equal exactly when the frames agree on each operand's slice. -/
theorem decodeAs_eq_iff_slices (r : Row) (F G : Frame) :
    decodeAs r F = decodeAs r G ↔ ∀ p ∈ rowSlices r, F.extractLsb' p.1 p.2 = G.extractLsb' p.1 p.2 := by
  cases r with
  | csum | ccmp | xtemp | rtemp | rhum => simp [decodeAs, rowSlices]
  | decode | zchk | nsum | crcv | xid | xchan | xtraw | xhum | xbatt =>
    simp [decodeAs, rowSlices, byteOf, nibOf, loOf_eq_extractLsb', crcvTopOf_eq_extractLsb', chanRawOf_eq_extractLsb,
      humBitsOf_eq_extractLsb, battBitOf_eq_extractLsb, BitVec.extractLsb]

theorem decodeAs_eq_iff_agree (r : Row) (F G : Frame) :
    decodeAs r F = decodeAs r G ↔ F &&& rowReads r = G &&& rowReads r := by
  rw [decodeAs_eq_iff_slices, rowReads_eq_slicesMask, and_slicesMask_eq_iff]

end Sys2Proof.Machine

/-! The operations that compare or raise (spec/40_frame_validation.md R40 and R44, spec/41_field_extraction.md R53,
spec/42_range_check.md R60 and R61), and that an operation other than `DECODE` drives wires only. -/

namespace Sys2Proof.Machine

/-! ### What the operations do to the state -/

theorem exec_zchk (b0 b1 b2 b3 : Byte) (s : State) :
    exec (.zchk b0 b1 b2 b3) s = .next (putWires { s.wires with
      allzero := allzeroFlag b0 b1 b2 b3
      raised := raiseIf (allzeroFlag b0 b1 b2 b3) .allZero none } s) := rfl

theorem exec_ccmp (s : State) :
    exec .ccmp s = .next (putWires { s.wires with
      ckOk := ckOkFlag s.wires.csum s.wires.crcv
      raised := raiseIf (!ckOkFlag s.wires.csum s.wires.crcv) .checksumMismatch s.wires.raised } s) := rfl

theorem exec_xtemp (s : State) :
    exec .xtemp s = .next (putWires { s.wires with tempTenths := tempTenthsOf s.wires.tempRaw } s) := rfl

theorem exec_rtemp (s : State) :
    exec .rtemp s = .next (putWires { s.wires with
      tOk := tOkFlag s.wires.tempTenths
      raised := raiseIf (!tOkFlag s.wires.tempTenths) .temperatureOutOfRange s.wires.raised } s) := rfl

theorem exec_rhum (s : State) :
    exec .rhum s = .next (putWires { s.wires with
      hOk := hOkFlag s.wires.humidity
      raised := raiseIf (!hOkFlag s.wires.humidity) .humidityOutOfRange s.wires.raised } s) := rfl

theorem exec_eq_putWires_of_row_ne_decode (i : Instr) (part : i.row ≠ .decode) (s : State) :
    ∃ w, exec i s = .next (putWires w s) := by
  cases i with
  | decode => exact absurd rfl part
  | zchk | nsum | csum | crcv | ccmp | xid | xchan | xtraw | xtemp | xhum | xbatt | rtemp | rhum => exact ⟨_, rfl⟩

theorem execAll_cons {i : Instr} {s t : State} (next : exec i s = .next t) (rest : List Instr) :
    execAll (i :: rest) s = execAll rest t := by
  rw [execAll, next]

/-! ### What `raise` reports -/

theorem raiseIf_of_standing {earlier : Option FailureReason} {r : FailureReason} (standing : earlier = some r)
    (condition : Bool) (own : FailureReason) : raiseIf condition own earlier = some r := by
  rw [standing, raiseIf_some]

/-- With no reason standing, a test that holds exactly when `P` does reports its reason when `P` fails. -/
theorem raiseIf_not_of_none {earlier : Option FailureReason} {ok : Bool} {P : Prop} [Decidable P]
    (unraised : earlier = none) (holds : ok = true ↔ P) (own : FailureReason) :
    raiseIf (!ok) own earlier = if P then none else some own := by
  subst unraised
  cases ok <;> simp [← holds]

/-! ### The statements -/

/-- Settles O1: four bytes are zero exactly when their concatenation is, and no reason can stand before `ZCHK`. -/
theorem zchkDrivesAllzero : Obligations.ZchkDrivesAllzero := by
  refine ⟨fun F => ⟨_, _, _, _, rfl, bytesZeroToThree_append F⟩, fun b0 b1 b2 b3 s => ?_⟩
  refine ⟨_, exec_zchk b0 b1 b2 b3 s, allzeroFlag_iff_append b0 b1 b2 b3,
    congrArg (raiseIf · .allZero none), congrArg (raiseIf · .allZero none), rfl⟩

theorem ckOkFlag_iff_toNat (csum crcv : BitVec 6) : ckOkFlag csum crcv = true ↔ csum.toNat = crcv.toNat := by
  rw [ckOkFlag_iff, BitVec.toNat_inj]

/-- Settles O5: the flag is equality of the two values, and `raise` keeps a reason that stands. -/
theorem ccmpComparesChecksums : Obligations.CcmpComparesChecksums := fun s =>
  have value := ckOkFlag_iff_toNat s.wires.csum s.wires.crcv
  ⟨_, exec_ccmp s, value, fun _ standing => raiseIf_of_standing standing _ _,
    fun unraised => raiseIf_not_of_none unraised value _, rfl⟩

/-- Settles O9: `temp_tenths` is `temp_raw` itself, whose two's-complement value takes 4096 away when bit 11 is set. -/
theorem xtempReadsTwosComplement : Obligations.XtempReadsTwosComplement := by
  intro s
  have value : tempTenthsOf s.wires.tempRaw = s.wires.tempRaw := tempTenthsOf_eq_self _
  refine ⟨_, exec_xtemp s, value, fun set => ?_, fun clear => ?_, rfl⟩
  · simp only [putWires_wires, value, ← signedTenths_eq_toInt, signedTenths, set, if_true]
  · simp only [putWires_wires, value, ← signedTenths_eq_toInt, signedTenths, clear, Bool.false_eq_true, if_false]

/-- The accepted temperatures as bit patterns: the signed range lies in two unsigned ones. -/
theorem tOkFlag_iff_toNat (t : BitVec 12) : tOkFlag t = true ↔ t.toNat ≤ 0x7cf ∨ 0xe0d ≤ t.toNat := by
  have bound : t.toNat < 4096 := t.isLt
  rw [tOkFlag_iff, BitVec.toInt_eq_toNat_cond]
  omega

/-- Settles O12: the flag is the signed comparison, also as unsigned ranges, and `raise` keeps a reason that stands. -/
theorem rtempExcludesBothBounds : Obligations.RtempExcludesBothBounds := fun s =>
  ⟨_, exec_rtemp s, tOkFlag_iff _, tOkFlag_iff_toNat _, fun _ standing => raiseIf_of_standing standing _ _,
    fun unraised => raiseIf_not_of_none unraised Iff.rfl _, rfl⟩

/-- Settles O13: the flag is the unsigned comparison, and half of byte 3 is at most 100 exactly when byte 3 is at most 201. -/
theorem rhumAcceptsUpToHundred : Obligations.RhumAcceptsUpToHundred := by
  refine ⟨fun s => ?_, fun F s => ?_⟩
  · refine ⟨_, exec_rhum s, hOkFlag_iff _, fun _ standing => raiseIf_of_standing standing _ _, fun unraised => ?_, rfl⟩
    rw [← ite_not]
    exact raiseIf_not_of_none unraised ((hOkFlag_iff _).trans not_lt.symm) _
  · refine ⟨_, (execAll_cons (exec_decodeAs_xhum F s) _).trans (execAll_cons (exec_rhum _) _), ?_⟩
    change hOkFlag (humBitsOf F) = true ↔ (byteOf F 3).toNat ≤ 0xc9
    rw [hOkFlag_iff, humBitsOf_toNat]
    omega

/-- In a legal register `checksum_valid` goes with status 1, the codes end at 5, and status 0 is that of reset (R11, R71). -/
theorem status_of_legalOut {o : OutReg} (legal : LegalOut o) :
    (o.checksumValid = true ↔ o.status = 1) ∧ o.status.toNat ≤ 5 ∧ (o.status = 0 → o.outValid = false) := by
  obtain rfl | ⟨status, valid, -⟩ | ⟨status | status | status | status, -, -, -, -, -, invalid⟩ := legal
  · decide
  · simp [status, valid]
  all_goals simp [status, invalid]

/-- Settles O43: each kind of legal register has its status and `checksum_valid`, and a part drives wires only. -/
theorem statusAndChecksumValidAgree : Obligations.StatusAndChecksumValidAgree := by
  refine ⟨fun _ => status_of_legalOut, fun i s t part next => ?_⟩
  obtain ⟨w, wired⟩ := exec_eq_putWires_of_row_ne_decode i part s
  obtain rfl : putWires w s = t := Host.Outcome.next.inj (wired.symm.trans next)
  exact ⟨rfl, rfl, rfl⟩

end Sys2Proof.Machine

/-! The thirteen operations of one frame in order (spec/30_encoding.md R33, spec/41_field_extraction.md R57): the wires they
drive, what those are of the frame, and how `DECODE` follows from them. -/

namespace Sys2Proof.Machine

/-! ### The wires of a frame -/

/-- From any state the thirteen operations drive every wire to the frame's value and touch nothing else. -/
theorem execAll_partsOf (F : Frame) (s : State) : execAll (partsOf F) s = .next (putWires (partWires F) s) := by
  simp only [partsOf, partRows, List.map_cons, List.map_nil, decodeAs, execAll, exec_zchk, exec_nsum, exec_csum, exec_crcv,
    exec_ccmp, exec_xid, exec_xchan, exec_xtraw, exec_xtemp, exec_xhum, exec_xbatt, exec_rtemp, exec_rhum, putWires_wires,
    putWires_putWires]
  rfl

/-- `raise` over the four stages is an early-return chain: the first stage that fails gives the reason (R85). -/
theorem raisedOf_eq_chain : ∀ allzero ckOk tOk hOk : Bool,
    raisedOf allzero ckOk tOk hOk =
      if allzero then some .allZero
      else if !ckOk then some .checksumMismatch
      else if !tOk then some .temperatureOutOfRange
      else if !hOk then some .humidityOutOfRange
      else none := by
  decide

theorem ckOk_of_raisedOf_eq_none :
    ∀ allzero ckOk tOk hOk : Bool, raisedOf allzero ckOk tOk hOk = none → ckOk = true := by
  decide

/-- The result the wires of a cycle stand for: the reason reported, or else the Reading of the members. -/
def resultOfWires (w : Wires) : Result :=
  match w.raised with
  | some reason => .fail reason
  | none => .ok ⟨w.id, w.channel, w.tempTenths, w.humidity, w.batteryLow, true⟩

/-- `DECODE` returns what the wires of its thirteen operations stand for (R70, R85). -/
theorem decodeFrame_eq_resultOfWires (F : Frame) : decodeFrame F = resultOfWires (partWires F) := by
  simp only [decodeFrame, resultOfWires, partWires, raisedOf_eq_chain]
  split_ifs <;> rfl

theorem resultOfWires_eq_fail_iff (w : Wires) (reason : FailureReason) :
    resultOfWires w = .fail reason ↔ w.raised = some reason := by
  unfold resultOfWires
  cases w.raised <;> simp

theorem resultOfWires_eq_ok_iff (w : Wires) (r : Reading) :
    resultOfWires w = .ok r ↔
      w.raised = none ∧ r = ⟨w.id, w.channel, w.tempTenths, w.humidity, w.batteryLow, true⟩ := by
  unfold resultOfWires
  cases w.raised <;> simp [eq_comm]

/-- Settles O17: from any state the thirteen operations drive the frame's wires, and `DECODE` registers what these stand for. -/
theorem partsInOrderRefineDecode : Obligations.PartsInOrderRefineDecode := by
  intro F s
  refine ⟨_, _, execAll_partsOf F s, exec_decode F s, rfl, rfl, rfl, fun reason => ?_, fun r returned => ?_, ?_⟩
  · rw [decodeFrame_eq_resultOfWires, resultOfWires_eq_fail_iff, putWires_wires]
  · rw [decodeFrame_eq_resultOfWires, resultOfWires_eq_ok_iff] at returned
    obtain ⟨unraised, rfl⟩ := returned
    have ckOk : (partWires F).ckOk = true := ckOk_of_raisedOf_eq_none _ _ _ _ unraised
    exact ⟨unraised, by rw [putWires_wires, ckOk]⟩
  · rw [putOut_out, putWires_wires, decodeFrame_eq_resultOfWires, resultOfWires]
    cases (partWires F).raised <;> rfl

/-! ### The wires by the source's formulas on whole bytes -/

/-- Shifting right by `k` and masking the low `n` bits cuts out the slice of `n` bits from bit `k`. -/
theorem ushiftRight_and_lowMask_toNat {w : Nat} (x mask : BitVec w) (k n : Nat) (ones : mask.toNat = 2 ^ n - 1) :
    ((x >>> k) &&& mask).toNat = (x.extractLsb' k n).toNat := by
  rw [BitVec.toNat_and, BitVec.toNat_ushiftRight, ones, Nat.and_two_pow_sub_one_eq_mod, BitVec.extractLsb'_toNat]

theorem and_lowMask_toNat {w : Nat} (x mask : BitVec w) (n : Nat) (ones : mask.toNat = 2 ^ n - 1) :
    (x &&& mask).toNat = (x.extractLsb' 0 n).toNat :=
  ushiftRight_and_lowMask_toNat x mask 0 n ones

/-- Shifting right by `k` alone cuts out all bits from bit `k`. -/
theorem ushiftRight_toNat_eq_extractLsb' {k n : Nat} (x : BitVec (n + k)) :
    (x >>> k).toNat = (x.extractLsb' k n).toNat := by
  have bound : x.toNat < 2 ^ n * 2 ^ k := by rw [← pow_add]; exact x.isLt
  rw [BitVec.toNat_ushiftRight, BitVec.extractLsb'_toNat, Nat.shiftRight_eq_div_pow,
    Nat.mod_eq_of_lt (Nat.div_lt_of_lt_mul (by rwa [mul_comm]))]

/-- Settles O18: each wire's slice of a byte is that byte shifted and masked. -/
theorem wiresFollowByteFormulas : Obligations.WiresFollowByteFormulas := by
  intro F s
  refine ⟨_, execAll_partsOf F s, rfl, ?_, ?_, ?_, ?_, ?_, frameNsum_toNat F, ?_⟩
  · rw [ushiftRight_and_lowMask_toNat _ _ 4 2 rfl]
    exact channelOf_toNat _
  · rw [and_lowMask_toNat _ _ 4 rfl]
    exact (congrArg BitVec.toNat (tempRawOf_eq_append _ _)).trans (append_toNat _ _)
  · exact (ushiftRight_toNat_eq_extractLsb' (n := 7) (k := 1) (byteOf F 3)).symm
  · rw [← BitVec.toNat_inj, ushiftRight_and_lowMask_toNat _ _ 4 1 rfl]
    exact (batteryFlag_iff _).trans BitVec.toNat_inj.symm
  · rw [and_lowMask_toNat _ _ 4 rfl, ushiftRight_toNat_eq_extractLsb' (n := 2) (k := 6) (byteOf F 5)]
    exact (congrArg BitVec.toNat (crcvOf_eq_append _ _)).trans (append_toNat _ _)
  · rw [← frameNsum_toNat]
    exact csumOf_toNat _

/-! ### The meaningful bits -/

/-- No operand of a part reaches into the padding (R23). -/
theorem rowSlices_above_padding : ∀ r ∈ partRows, ∀ p ∈ rowSlices r, 6 ≤ p.1 ∧ p.1 + p.2 ≤ 48 := by
  decide

theorem partsOf_eq_of_agree {F G : Frame} (agree : F.extractLsb' 6 42 = G.extractLsb' 6 42) : partsOf F = partsOf G := by
  refine List.map_congr_left fun r part => (decodeAs_eq_iff_slices r F G).mpr fun p operand => ?_
  obtain ⟨low, high⟩ := rowSlices_above_padding r part p operand
  exact extractLsb'_eq_of_inside agree low high

/-- Equal operations drive equal wires, so `DECODE` sees no more of a frame than its parts do. -/
theorem decodeFrame_eq_of_partsOf_eq {F G : Frame} (parts : partsOf F = partsOf G) : decodeFrame F = decodeFrame G := by
  have driven := execAll_partsOf F State.reset
  rw [parts, execAll_partsOf, Host.Outcome.next.injEq] at driven
  have wires : partWires G = partWires F := congrArg State.wires driven
  rw [decodeFrame_eq_resultOfWires, decodeFrame_eq_resultOfWires, wires]

theorem decodeFrame_eq_of_agree {F G : Frame} (agree : F.extractLsb' 6 42 = G.extractLsb' 6 42) :
    decodeFrame F = decodeFrame G :=
  decodeFrame_eq_of_partsOf_eq (partsOf_eq_of_agree agree)

/-- Settles O19: frames that agree above the padding give the thirteen operations the same operands. -/
theorem paddingNeverMatters : Obligations.PaddingNeverMatters := by
  intro F G s agree
  have result : decodeFrame F = decodeFrame G := decodeFrame_eq_of_agree agree
  exact ⟨result, by rw [exec_decode, exec_decode, result], by rw [partsOf_eq_of_agree agree]⟩

/-- Settles O27: a row's mask marks its operands, and the mask of `DECODE` marks the slice above the padding. -/
theorem operationsReadOnlyMarkedBits : Obligations.OperationsReadOnlyMarkedBits := by
  refine ⟨fun r _ F G => decodeAs_eq_iff_agree r F G, by decide, fun F G agree => decodeFrame_eq_of_agree ?_⟩
  exact (and_sliceMask_eq_iff F G 6 42).mp agree

end Sys2Proof.Machine

/-! The results of `DECODE` (spec/43_decode_top.md R71 and R79, spec/30_encoding.md R32, R34 and R37): when it returns a
Reading and which, what it depends on, and how the register encodes it. -/

namespace Sys2Proof.Machine

/-! ### The Reading -/

/-- An early return lets a Reading through when its test does not fire. -/
theorem earlyReturn_eq_ok_iff {fires : Prop} [Decidable fires] {own : FailureReason} {rest : Result} {r : Reading} :
    (if fires then .fail own else rest) = Result.ok r ↔ ¬fires ∧ rest = .ok r := by
  rw [ite_eq_iff]
  simp

theorem decodeFrame_eq_ok_iff (F : Frame) (r : Reading) :
    decodeFrame F = .ok r ↔
      F.extractLsb 47 16 ≠ 0 ∧ portNibbleSum F % 64 = (F.extractLsb 11 6).toNat ∧
      (-500 < (F.extractLsb 35 24).toInt ∧ (F.extractLsb 35 24).toInt < 2000) ∧
      (F.extractLsb 23 17).toNat ≤ 100 ∧ portReading F = r := by
  simp only [decodeFrame_eq_portChain, earlyReturn_eq_ok_iff, ne_eq, not_not, not_or, not_le, not_lt, Result.ok.injEq]

/-- The channel of a Reading is the one three-bit value from 1 on that exceeds the two port bits by one. -/
theorem channel_eq_iff (channel : BitVec 3) (chanRaw : BitVec 2) :
    BitVec.ofNat 3 (chanRaw.toNat + 1) = channel ↔
      1 ≤ channel.toNat ∧ channel.toNat ≤ 4 ∧ channel.toNat - 1 = chanRaw.toNat := by
  have bound : chanRaw.toNat < 4 := chanRaw.isLt
  rw [← BitVec.toNat_inj, BitVec.toNat_ofNat]
  omega

theorem portReading_eq_iff (F : Frame) (r : Reading) :
    portReading F = r ↔
      (1 ≤ r.channel.toNat ∧ r.channel.toNat ≤ 4 ∧ r.channel.toNat - 1 = (F.extractLsb 37 36).toNat) ∧
      r.id = F.extractLsb 47 40 ∧ r.tempTenths = F.extractLsb 35 24 ∧ r.humidity = F.extractLsb 23 17 ∧
      r.batteryLow = F.getLsbD 12 ∧ r.checksumValid = true := by
  rw [← channel_eq_iff]
  cases r
  simp only [portReading, Reading.mk.injEq]
  grind

/-- Settles O15: the Reading let through by all four tests is the port's, so its members' ranges are the tests' own. -/
theorem readingIffFrameConditions : Obligations.ReadingIffFrameConditions := by
  intro F r
  rw [decodeFrame_eq_ok_iff, portReading_eq_iff]
  constructor
  · rintro ⟨nonzero, checksum, ⟨low, high⟩, humid, ⟨one, four, channel⟩, id, temp, humidity, rest⟩
    rw [← temp] at low high
    rw [← humidity] at humid
    exact ⟨nonzero, checksum, by omega, by omega, humid, one, four, channel, id, temp, humidity, rest⟩
  · rintro ⟨nonzero, checksum, low, high, humid, one, four, channel, id, temp, humidity, rest⟩
    rw [temp] at low high
    rw [humidity] at humid
    exact ⟨nonzero, checksum, ⟨by omega, by omega⟩, humid, ⟨one, four, channel⟩, id, temp, humidity, rest⟩

theorem eq_portReading_of_ok {F : Frame} {r : Reading} (returned : decodeFrame F = .ok r) : r = portReading F := by
  obtain ⟨-, -, -, -, reading⟩ := (decodeFrame_eq_ok_iff F r).mp returned
  exact reading.symm

/-- Settles O20: a Reading is made of five slices of the port, and the mask marks just these. -/
theorem unassignedBitsReachNoOutput : Obligations.UnassignedBitsReachNoOutput := by
  intro F G r q agree first second
  have mask : 0xff3ffffe1000#48 = slicesMask [(40, 8), (36, 2), (24, 12), (17, 7), (12, 1)] := by decide
  rw [mask, and_slicesMask_eq_iff] at agree
  simp only [List.forall_mem_cons, List.not_mem_nil, false_implies, implies_true, and_true] at agree
  obtain ⟨id, channel, temp, humidity, battery⟩ := agree
  have batteryLow : F.getLsbD 12 = G.getLsbD 12 := (extractLsb'_eq_iff F G).mp battery 12 le_rfl (by decide)
  rw [eq_portReading_of_ok first, eq_portReading_of_ok second]
  simp only [portReading, BitVec.extractLsb, Nat.reduceSub, Nat.reduceAdd, id, channel, temp, humidity, batteryLow]

/-! ### The classes of AllZero and ChecksumMismatch -/

theorem decodeFrame_eq_allZero_iff (F : Frame) : decodeFrame F = .fail .allZero ↔ F.extractLsb 47 16 = 0 :=
  (failureReasonsFollowPriority F).1

theorem decodeFrame_eq_checksumMismatch_iff (F : Frame) :
    decodeFrame F = .fail .checksumMismatch ↔
      F.extractLsb 47 16 ≠ 0 ∧ portNibbleSum F % 64 ≠ (F.extractLsb 11 6).toNat :=
  (failureReasonsFollowPriority F).2.1

/-- Settles O28: the mask of `ZCHK` marks the slice that `DECODE` tests for zero, and no other row has a mask. -/
theorem zchkPatternIsAllZeroClass : Obligations.ZchkPatternIsAllZeroClass := by
  refine fun F => ⟨?_, fun r other => ?_⟩
  · have mask : rowMask .zchk = sliceMask 16 32 := by decide
    have pattern := and_sliceMask_eq_iff F 0#48 16 32
    rw [BitVec.zero_and, BitVec.extractLsb'_zero] at pattern
    rw [rowMatches, beq_iff_eq, mask, decodeFrame_eq_allZero_iff]
    exact pattern
  · cases r with
    | zchk => exact absurd rfl other
    | decode | nsum | csum | crcv | ccmp | xid | xchan | xtraw | xtemp | xhum | xbatt | rtemp | rhum =>
      simp [rowMatches, rowMask]

/-! ### The encoding on the register -/

theorem outOfReading_injective {r q : Reading} (valid : r.checksumValid = q.checksumValid)
    (same : outOfReading r = outOfReading q) : r = q := by
  cases r
  cases q
  simp_all [outOfReading]

theorem outOfFailure_injective {r q : FailureReason} (same : outOfFailure r = outOfFailure q) : r = q :=
  reasonCode_injective r q (congrArg OutReg.status same)

/-- The code of a failure is never the status of a Reading. -/
theorem outOfReading_ne_outOfFailure (r : Reading) (reason : FailureReason) : outOfReading r ≠ outOfFailure reason := by
  intro same
  have status : (1 : BitVec 3) = reasonCode reason := congrArg OutReg.status same
  cases reason <;> exact absurd status (by decide)

/-- Results whose Readings have `checksum_valid` 1 are told apart by their encodings: status 1 is a Reading, a code its reason. -/
theorem outOfResult_injective : ∀ {p q : Result}, (∀ r, p = .ok r → r.checksumValid = true) →
    (∀ r, q = .ok r → r.checksumValid = true) → outOfResult p = outOfResult q → p = q
  | .ok r, .ok q, left, right, same =>
    congrArg Result.ok (outOfReading_injective ((left r rfl).trans (right q rfl).symm) same)
  | .ok r, .fail reason, _, _, same => absurd same (outOfReading_ne_outOfFailure r reason)
  | .fail reason, .ok q, _, _, same => absurd same.symm (outOfReading_ne_outOfFailure q reason)
  | .fail _, .fail _, _, _, same => congrArg Result.fail (outOfFailure_injective same)

theorem checksumValid_of_ok (F : Frame) (r : Reading) (returned : decodeFrame F = .ok r) : r.checksumValid = true := by
  rw [eq_portReading_of_ok returned]
  rfl

/-- Settles O21: `checksum_valid` is 1 in every Reading returned, and such results have different encodings. -/
theorem resultEncodingIsOneToOne : Obligations.ResultEncodingIsOneToOne :=
  fun F G => outOfResult_injective (checksumValid_of_ok F) (checksumValid_of_ok G)

end Sys2Proof.Machine

/-! Laws of the checksum (spec/40_frame_validation.md section 3, R45 to R47): it is the nibble sum modulo 64, which a changed
nibble always moves, and the received checksum can be set to it in one way. -/

namespace Sys2Proof.Machine

/-! ### The computed and the received checksum -/

theorem partWires_csum_toNat (F : Frame) : (partWires F).csum.toNat = portNibbleSum F % 64 := by
  rw [← frameNsum_toNat]
  exact csumOf_toNat _

theorem partWires_crcv (F : Frame) : (partWires F).crcv = F.extractLsb 11 6 := crcvOf_frame F

theorem partWires_ckOk (F : Frame) : (partWires F).ckOk = ckOkFlag (partWires F).csum (partWires F).crcv := rfl

theorem portNibbleSum_eq_of_perm {F G : Frame}
    (reordered : ((List.range 9).map (fun j => F.extractLsb' (44 - 4 * j) 4)).Perm
      ((List.range 9).map (fun j => G.extractLsb' (44 - 4 * j) 4))) : portNibbleSum F = portNibbleSum G := by
  have sums := (reordered.map BitVec.toNat).sum_eq
  rwa [List.map_map, List.map_map] at sums

/-- Settles O23: `csum` is the nibble sum modulo 64, and a sum does not see the order of its terms. -/
theorem checksumSeesOnlyTheSum : Obligations.ChecksumSeesOnlyTheSum := by
  intro F G
  have sees : portNibbleSum F % 64 = portNibbleSum G % 64 ↔ (partWires F).csum = (partWires G).csum := by
    rw [← BitVec.toNat_inj, partWires_csum_toNat, partWires_csum_toNat]
  refine ⟨sees, fun reordered => ?_⟩
  have csum := sees.mp (congrArg (· % 64) (portNibbleSum_eq_of_perm reordered))
  exact ⟨csum, fun received => by rw [partWires_ckOk, partWires_ckOk, csum, partWires_crcv, partWires_crcv, received]⟩

/-! ### Frames that agree above the received checksum -/

/-- The nine nibbles fill the port from bit 12 up. -/
theorem portNibbleSum_eq_of_agree {F G : Frame} (agree : F.extractLsb' 12 36 = G.extractLsb' 12 36) :
    portNibbleSum F = portNibbleSum G := by
  unfold portNibbleSum
  congr 1
  refine List.map_congr_left fun j region => ?_
  have range : j < 9 := List.mem_range.mp region
  rw [extractLsb'_eq_of_inside agree (by omega) (by omega)]

theorem getLsbD_withCrcv (F : Frame) (c : BitVec 6) {i : Nat} (port : i < 48) :
    (withCrcv F c).getLsbD i = if 6 ≤ i ∧ i < 12 then c.getLsbD (i - 6) else F.getLsbD i := by
  have mask : 0xfffffffff03f#48 = ~~~ sliceMask 6 6 := by decide
  have marked := getLsbD_sliceMask (start := 6) (len := 6) port
  simp only [withCrcv, mask, BitVec.getLsbD_or, BitVec.getLsbD_and, BitVec.getLsbD_not, BitVec.getLsbD_shiftLeft,
    BitVec.getLsbD_setWidth]
  grind

theorem withCrcv_agree_above (F : Frame) (c : BitVec 6) : (withCrcv F c).extractLsb' 12 36 = F.extractLsb' 12 36 := by
  rw [extractLsb'_eq_iff]
  intro i low high
  rw [getLsbD_withCrcv F c high, if_neg (by omega)]

theorem withCrcv_crcv (F : Frame) (c : BitVec 6) : (withCrcv F c).extractLsb 11 6 = c := by
  apply BitVec.eq_of_getLsbD_eq
  intro i range
  rw [BitVec.extractLsb, BitVec.getLsbD_extractLsb', getLsbD_withCrcv F c (by omega), if_pos (by omega),
    Nat.add_sub_cancel_left]
  simp only [range, decide_true, Bool.true_and]

/-- Settles O24: the nibble sum does not see the received checksum, so the one that matches is the sum modulo 64. -/
theorem exactlyOneChecksumMatches : Obligations.ExactlyOneChecksumMatches := by
  refine fun F => ⟨(partWires F).csum, fun d => ?_⟩
  have csum : (partWires (withCrcv F d)).csum = (partWires F).csum := by
    rw [← BitVec.toNat_inj, partWires_csum_toNat, partWires_csum_toNat,
      portNibbleSum_eq_of_agree (withCrcv_agree_above F d)]
  refine ⟨fun s => ⟨_, execAll_partsOf _ s, ?_⟩, fun nonzero => ?_⟩
  · rw [putWires_wires, partWires_ckOk, csum, partWires_crcv, withCrcv_crcv, ckOkFlag_iff, eq_comm]
  · have kept : (withCrcv F d).extractLsb 47 16 = F.extractLsb 47 16 :=
      extractLsb'_eq_of_inside (withCrcv_agree_above F d) (by decide) (by decide)
    rw [decodeFrame_eq_checksumMismatch_iff, kept, withCrcv_crcv, ← partWires_csum_toNat, csum, and_iff_right nonzero]
    exact BitVec.toNat_inj.ne.trans ne_comm

/-! ### One flipped bit -/

theorem getLsbD_flipBit (F : Frame) {k i : Nat} (transmitted : k < 48) :
    (flipBit F k).getLsbD i = (F.getLsbD i ^^ decide (i = 47 - k)) := by
  simp only [flipBit, BitVec.getLsbD_xor, BitVec.getLsbD_shiftLeft, BitVec.getLsbD_one]
  grind

/-- A slice changes exactly when the flipped bit lies in it. -/
theorem flipBit_extractLsb'_eq_iff (F : Frame) {k start len : Nat} (transmitted : k < 48) :
    (flipBit F k).extractLsb' start len = F.extractLsb' start len ↔ ¬(start ≤ 47 - k ∧ 47 - k < start + len) := by
  rw [extractLsb'_eq_iff]
  constructor
  · rintro agree ⟨low, high⟩
    have flipped := agree (47 - k) low high
    simp [getLsbD_flipBit F transmitted] at flipped
  · intro outside i low high
    have other : i ≠ 47 - k := by rintro rfl; exact outside ⟨low, high⟩
    simp [getLsbD_flipBit F transmitted, other]

theorem portNibbleSum_eq_sum (F : Frame) :
    portNibbleSum F = ∑ j ∈ Finset.range 9, (F.extractLsb' (44 - 4 * j) 4).toNat := rfl

/-- Changing one nibble of the nine moves the sum by 1 to 15, and so moves it modulo 64. -/
theorem portNibbleSum_mod_ne_of_one_nibble {F G : Frame} {j : Nat} (region : j < 9)
    (changed : F.extractLsb' (44 - 4 * j) 4 ≠ G.extractLsb' (44 - 4 * j) 4)
    (kept : ∀ i < 9, i ≠ j → F.extractLsb' (44 - 4 * i) 4 = G.extractLsb' (44 - 4 * i) 4) :
    portNibbleSum F % 64 ≠ portNibbleSum G % 64 := by
  have member : j ∈ Finset.range 9 := Finset.mem_range.mpr region
  have others : ∑ i ∈ (Finset.range 9).erase j, (F.extractLsb' (44 - 4 * i) 4).toNat =
      ∑ i ∈ (Finset.range 9).erase j, (G.extractLsb' (44 - 4 * i) 4).toNat := by
    refine Finset.sum_congr rfl fun i rest => ?_
    obtain ⟨other, range⟩ := Finset.mem_erase.mp rest
    rw [kept i (Finset.mem_range.mp range) other]
  rw [portNibbleSum_eq_sum, portNibbleSum_eq_sum, ← Finset.add_sum_erase _ _ member, ← Finset.add_sum_erase _ _ member,
    others]
  have first := (F.extractLsb' (44 - 4 * j) 4).isLt
  have second := (G.extractLsb' (44 - 4 * j) 4).isLt
  rw [← BitVec.toNat_inj.ne] at changed
  omega

/-- A flip of a meaningful bit changes one nibble of the sum or the received checksum, never both. -/
theorem flipBit_mismatches {F : Frame} {k : Nat} (meaningful : k < 42)
    (matched : portNibbleSum F % 64 = (F.extractLsb 11 6).toNat) :
    portNibbleSum (flipBit F k) % 64 ≠ ((flipBit F k).extractLsb 11 6).toNat := by
  have slice (start len : Nat) := flipBit_extractLsb'_eq_iff F (start := start) (len := len) (show k < 48 by omega)
  by_cases region : k < 36
  · have received : (flipBit F k).extractLsb 11 6 = F.extractLsb 11 6 := (slice 6 6).mpr (by omega)
    rw [received, ← matched]
    refine portNibbleSum_mod_ne_of_one_nibble (j := k / 4) (by omega) ?_ fun i range other => ?_
    · exact (slice _ _).not.mpr (by omega)
    · exact (slice _ _).mpr (by omega)
  · have sum : portNibbleSum (flipBit F k) = portNibbleSum F :=
      portNibbleSum_eq_of_agree ((slice 12 36).mpr (by omega))
    have received : (flipBit F k).extractLsb 11 6 ≠ F.extractLsb 11 6 := (slice 6 6).not.mpr (by omega)
    rw [sum, matched]
    exact fun same => received (BitVec.toNat_inj.mp same).symm

/-- Settles O22: a meaningful flip leaves the checksums different, and a padding flip leaves all meaningful bits. -/
theorem singleBitFlipsAreDetected : Obligations.SingleBitFlipsAreDetected := by
  refine ⟨fun F k meaningful notZero notMismatch => ?_, fun F k low high => ?_⟩
  · rw [ne_eq, decodeFrame_eq_allZero_iff] at notZero
    rw [ne_eq, decodeFrame_eq_checksumMismatch_iff, not_and_not_right] at notMismatch
    have mismatch := flipBit_mismatches meaningful (notMismatch notZero)
    split_ifs with zero
    · exact (decodeFrame_eq_allZero_iff _).mpr zero
    · exact (decodeFrame_eq_checksumMismatch_iff _).mpr ⟨zero, mismatch⟩
  · exact decodeFrame_eq_of_agree ((flipBit_extractLsb'_eq_iff F high).mpr (by omega))

end Sys2Proof.Machine

/-! The edge (spec/43_decode_top.md section 2, spec/70_reset_and_hazards.md R100 to R104) and the invariant of the output
register (spec/30_encoding.md R37): one equation for what every edge does, and what follows from it for one edge and a run. -/

namespace Sys2Proof.Machine

/-! ### What an edge does -/

/-- An input that writes the register whatever it held: a reset or a frame. -/
abbrev Ports.IsEvent (p : Ports) : Prop := p.rst = true ∨ p.frameValid = true

/-- The output register after an edge that samples `p`, from the register before it (R74). -/
def edgeOut (p : Ports) (o : OutReg) : OutReg :=
  if p.rst then OutReg.reset
  else if p.frameValid then outOfResult (decodeFrame p.frame)
  else { o with outValid := false }

/-- Every edge uses up its cycle and writes the output register, and does nothing else (R77, R89). -/
theorem step_eq (s : State) : step s = .next (putOut (edgeOut (sampledPorts s) s.out) (passCycle s)) := by
  obtain ⟨rst, next⟩ | ⟨rst, valid, next⟩ | ⟨rst, valid, next⟩ := step_cases s
  · simp only [next, edgeOut, rst, if_true]
  · simp only [next, edgeOut, rst, valid, if_true, Bool.false_eq_true, if_false]
  · simp only [next, edgeOut, rst, valid, Bool.false_eq_true, if_false]

theorem eq_of_step_eq_next {s t : State} (next : step s = .next t) :
    t = putOut (edgeOut (sampledPorts s) s.out) (passCycle s) := by
  rw [step_eq, Host.Outcome.next.injEq] at next
  exact next.symm

theorem step_listed (p : Ports) (rest : List Ports) (s : State) :
    step { s with inputs := p :: rest } =
      .next { s with inputs := rest, wires := Wires.idle, out := edgeOut p s.out } :=
  step_eq { s with inputs := p :: rest }

theorem edgeOut_eq_of_isEvent {p : Ports} (event : p.IsEvent) (o o' : OutReg) : edgeOut p o = edgeOut p o' := by
  obtain rst | valid := event
  · simp only [edgeOut, rst, if_true]
  · simp only [edgeOut, valid, if_true]

/-! ### One edge -/

/-- Settles O32: six bytes decode to `DECODE` of the frame, which is what the edge with that frame runs. -/
theorem stepRunsDecodedFrame : Obligations.StepRunsDecodedFrame := by
  intro s F rest i decoded _
  obtain rfl : Instr.decode F = i := Except.ok.inj ((decodeBytes_bytesOfFrame F).symm.trans decoded)
  exact step_listed ⟨false, true, F⟩ rest s

/-- Settles O33: with `rst` 1 the edge's register is the reset value, whatever else is on the ports. -/
theorem resetEdgeClearsOutput : Obligations.ResetEdgeClearsOutput :=
  fun s fv F rest => step_listed ⟨true, fv, F⟩ rest s

/-- Settles O34: with `rst` and `frame_valid` 0 the edge's register is the old one with `out_valid` 0. -/
theorem idleEdgeHoldsResult : Obligations.IdleEdgeHoldsResult :=
  fun s F rest => step_listed ⟨false, false, F⟩ rest s

/-- Settles O36: every edge uses up one input, listed or free, and leaves the wires idle. -/
theorem everyEdgeCompletes : Obligations.EveryEdgeCompletes := by
  refine fun s => ⟨_, step_eq s, ?_, fun listed => ?_, ?_⟩
  · rw [putOut_inputs, passCycle_inputs]
  · rw [putOut_freeCount, passCycle_freeCount, if_neg listed]
  · rw [putOut_wires, passCycle_wires]

/-- Settles O37: an edge with a frame writes the same register over any old one. -/
theorem resultDependsOnFrameAlone : Obligations.ResultDependsOnFrameAlone :=
  fun F s u rest more => ⟨_, _, step_listed ⟨false, true, F⟩ rest s, step_listed ⟨false, true, F⟩ more u,
    edgeOut_eq_of_isEvent (p := ⟨false, true, F⟩) (.inr rfl) s.out u.out, rfl⟩

/-- Settles O38: every edge leaves the wires idle, and the thirteen operations drive all wires from the frame alone. -/
theorem noWireValueCrossesAnEdge : Obligations.NoWireValueCrossesAnEdge := by
  refine ⟨fun s t next => ?_, fun F s u => ⟨_, _, execAll_partsOf F s, execAll_partsOf F u, rfl⟩⟩
  rw [eq_of_step_eq_next next, putOut_wires, passCycle_wires]

/-! ### A run -/

/-- The output register after edges that sample the listed inputs in turn. -/
def runOut (ps : List Ports) (o : OutReg) : OutReg := ps.foldl (fun held p => edgeOut p held) o

theorem runOut_eq_of_event {ps : List Ports} (event : ∃ p ∈ ps, p.IsEvent) (o o' : OutReg) :
    runOut ps o = runOut ps o' := by
  induction ps generalizing o o' with
  | nil => simp at event
  | cons p rest ih =>
    obtain ⟨q, listed, isEvent⟩ := event
    obtain rfl | later := List.mem_cons.mp listed
    · exact congrArg (runOut rest) (edgeOut_eq_of_isEvent isEvent o o')
    · exact ih ⟨q, later, isEvent⟩ _ _

theorem run_succ (M : Host.Core) {s t : M.State} (next : M.step s = .next t) (k : Nat) :
    M.run (k + 1) s = M.run k t := by
  rw [Host.Core.run, next]

/-- A run over listed inputs completes, and each input in turn decides the output register. -/
theorem run_listed (ps rest : List Ports) (s : State) :
    ∃ t, core.run ps.length { s with inputs := ps ++ rest } = .next t ∧ t.out = runOut ps s.out := by
  induction ps generalizing s with
  | nil => exact ⟨_, rfl, rfl⟩
  | cons p later ih =>
    obtain ⟨t, ends, out⟩ := ih { s with wires := Wires.idle, out := edgeOut p s.out }
    exact ⟨t, (run_succ core (step_listed p (later ++ rest) s) later.length).trans ends, out⟩

/-- Settles O39: the register after the run is that of the listed inputs, and an event among them forgets the old one. -/
theorem outputForgetsStartState : Obligations.OutputForgetsStartState := by
  intro ps rest more s u event
  obtain ⟨t, first, outT⟩ := run_listed ps rest s
  obtain ⟨v, second, outV⟩ := run_listed ps more u
  exact ⟨t, v, first, second, by rw [outT, outV, runOut_eq_of_event event]⟩

/-! ### The invariant -/

theorem legalOut_reset : LegalOut OutReg.reset := .inl rfl

theorem legalOut_outOfFailure (reason : FailureReason) : LegalOut (outOfFailure reason) := by
  refine .inr (.inr ⟨?_, rfl, rfl, rfl, rfl, rfl, rfl⟩)
  cases reason <;> decide

/-- A Reading's ranges (R79) are those of a legal register. -/
theorem legalOut_outOfResult_decodeFrame (F : Frame) : LegalOut (outOfResult (decodeFrame F)) := by
  cases returned : decodeFrame F with
  | fail reason => exact legalOut_outOfFailure reason
  | ok r =>
    obtain ⟨-, -, low, high, humid, one, four, -⟩ := (readingIffFrameConditions F r).mp returned
    exact .inr (.inl ⟨rfl, rfl, one, four, low, high, humid⟩)

/-- Being legal does not look at `out_valid`, but for the reset value, where it is 0 already. -/
theorem legalOut_dropOutValid {o : OutReg} (legal : LegalOut o) : LegalOut { o with outValid := false } := by
  obtain rfl | reading | failure := legal
  · exact legalOut_reset
  · exact .inr (.inl reading)
  · exact .inr (.inr failure)

theorem legalOut_edgeOut_of_isEvent {p : Ports} (event : p.IsEvent) (o : OutReg) : LegalOut (edgeOut p o) := by
  unfold edgeOut
  split_ifs with rst valid
  · exact legalOut_reset
  · exact legalOut_outOfResult_decodeFrame p.frame
  · exact absurd event (not_or.mpr ⟨rst, valid⟩)

theorem legalOut_edgeOut (p : Ports) {o : OutReg} (legal : LegalOut o) : LegalOut (edgeOut p o) := by
  by_cases event : p.IsEvent
  · exact legalOut_edgeOut_of_isEvent event o
  · obtain ⟨rst, valid⟩ := not_or.mp event
    rw [edgeOut, if_neg rst, if_neg valid]
    exact legalOut_dropOutValid legal

/-- Settles O40: an edge with `rst` 1 writes the reset value, which is legal. -/
theorem resetRegisterIsLegal : Obligations.ResetRegisterIsLegal := by
  refine ⟨legalOut_reset, rfl, fun s rst => ⟨_, step_eq s, ?_⟩⟩
  rw [putOut_out, edgeOut, if_pos rst, reset_out]

/-- Settles O41: the reset value and every encoded result are legal, and an idle edge keeps what makes a register legal. -/
theorem stepKeepsOutputLegal : Obligations.StepKeepsOutputLegal := by
  intro s t legal next
  rw [eq_of_step_eq_next next, putOut_out]
  exact legalOut_edgeOut _ legal

/-- Settles O42: a reset and a frame write a legal register over any old one. -/
theorem eventMakesOutputLegal : Obligations.EventMakesOutputLegal :=
  fun s event => ⟨_, step_eq s, legalOut_edgeOut_of_isEvent event s.out⟩

end Sys2Proof.Machine
